-- ==== Sys2Proof/Word.lean ====
section
/-! DEFINITION. The words that cross the CORE's boundary and its bit-level registers. -/

namespace Sys2Proof

/-- A command or response word: "single 32-bit values moved whole" (20_memory.md R64 (c)). -/
abbrev Word := BitVec 32

/-- An operand byte of a command word, a byte of the sensor frame, the bit timer, the error counter. -/
abbrev Byte := BitVec 8

/-- The 40 sampled bits of one transaction (10_state.md R33). -/
abbrev Frame := BitVec 40

/-- A level of the shared line, or a one-bit output: `true` is high, asserted or 1 (10_state.md R40). -/
abbrev Level := Bool

end Sys2Proof
end

