-- ==== Sys2Proof/Config.lean ====
section
/-! DEFINITION. The parameters of 00_scope.md R8: the fixed literals, the parameters a model may re-instantiate,
and the free constants for the two parameters the spec leaves OPEN. -/

namespace Sys2Proof

/-- `N_TIMERS`, timers in TimerBank (R8; R22 fixes the four elements of `SNAP`). -/
abbrev Config.nTimers : Nat := 4

/-- `DUTY_MAX`, the largest duty value (R8, R16). -/
abbrev Config.dutyMax : Nat := 100

/-- `PWM_PERIOD`, compare events in one PWM cycle (R8, after conflict C1). -/
abbrev Config.pwmPeriod : Nat := 100

/-- `N_BITS`, bits in a sensor frame (R8, R94). -/
abbrev Config.nBits : Nat := 40

/-- The free part of `SENSOR_PERIOD`, which the spec leaves OPEN (R8, U7): no value of it can be proved.
Log 5. -/
opaque Config.sensorPeriodLessOne : Fin 4294967295

/-- The free part of `SENS_TIMEOUT`, which the spec leaves OPEN (R8, U7): no value of it can be proved.
Log 5. -/
opaque Config.sensTimeoutLessOne : Nat

/-- `SENSOR_PERIOD` of the machine that `State.reset` describes: some value in `1 .. 2^32 - 1` (R8). -/
def Config.sensorPeriod : Nat := Config.sensorPeriodLessOne.val + 1

/-- `SENS_TIMEOUT` of the machine that `State.reset` describes: some value `>= 1` (R8). -/
def Config.sensTimeout : Nat := Config.sensTimeoutLessOne + 1

/-- The parameters of R8 that a model may re-instantiate. They are fixed for a machine: no step writes them.
DESIGN CHOICE, safe (log 4): they stand in `State`, so that a statement over every state holds for every value. -/
structure Params where
  /-- `TICK_W`, the width in bits of `TICK`, of every `SNAP[i]` and of every elapsed result (D2). -/
  tickW        : Nat
  /-- `SENSOR_TIMER`, the timer that paces sensor transactions (D5). -/
  sensorTimer  : Fin Config.nTimers
  /-- `SENSOR_PERIOD`, ticks between sensor transactions (OPEN, D5). -/
  sensorPeriod : Nat
  /-- `REQ_LOW`, the length of the request pulse in tick events (D13). -/
  reqLow       : Nat
  /-- `SENS_TIMEOUT`, the cap of the per-stage timeout counter in `SAMPLE` steps (OPEN, D17). -/
  sensTimeout  : Nat
  /-- `BIT_THRESHOLD`, in `BIT_EV` counts; a count above it is a 1 (D18). -/
  bitThreshold : Nat
  /-- `MAX_ERRORS`, the consecutive-error threshold. -/
  maxErrors    : Nat
  deriving DecidableEq, Repr

/-- The constraints of R8 on the parameters. The bounds of `reqLow` are DEDUCED, safe (log 6): R8 states none,
and R20 gives `REQ_CNT` five bits and the range `0 .. REQ_LOW - 1`. -/
abbrev Params.Valid (p : Params) : Prop :=
  1 ≤ p.tickW ∧ p.tickW ≤ 32 ∧
  1 ≤ p.sensorPeriod ∧ p.sensorPeriod < 2 ^ p.tickW ∧
  1 ≤ p.reqLow ∧ p.reqLow ≤ 32 ∧
  1 ≤ p.sensTimeout

/-- The values of R8: the defaults where it gives one, the free constants for the two OPEN parameters. -/
def Params.default : Params where
  tickW        := 32
  sensorTimer  := 0
  sensorPeriod := Config.sensorPeriod
  reqLow       := 18
  sensTimeout  := Config.sensTimeout
  bitThreshold := 50
  maxErrors    := 1

end Sys2Proof
end

