-- ==== Sys2Proof/Syntax.lean ====
section
/-! DEFINITION. The steps of 00_scope.md R6 (one constructor per row of spec/opcode_table.json) and the stimuli
at the CORE's input ports that encode them (10_state.md R40, 30_encoding.md R81, R99). -/

namespace Sys2Proof

/-- The thirteen steps (R6). Operands are the unsigned integers of R9 and R93; `WellFormed.lean` bounds them. -/
inductive Instr where
  /-- `NOW` (R111). -/
  | now
  /-- `TRESET id` (R112). -/
  | treset (id : Nat)
  /-- `TELAPSED id` (R113). -/
  | telapsed (id : Nat)
  /-- `SETDUTY r, g, b` (R132). -/
  | setduty (r g b : Nat)
  /-- `POLL` (R155). -/
  | poll
  /-- `GETHUM` (R192). -/
  | gethum
  /-- `GETTEMP` (R193). -/
  | gettemp
  /-- `GETERR` (R194). -/
  | geterr
  /-- `RESET` (R240). -/
  | reset
  /-- `TICK_EV`, the tick interrupt (R110). -/
  | tickEv
  /-- `CMP_EV`, the PWM compare interrupt (R133, R134). -/
  | cmpEv
  /-- `BIT_EV`, one count of the bit timer (R160). -/
  | bitEv
  /-- `SAMPLE lv`, one iteration of SensorLink's polling loop (R161). -/
  | sample (lv : Level)
  deriving DecidableEq, Repr

/-- The host operations: the steps with a command word (R6, R82). -/
def Instr.isHostOp : Instr → Bool
  | .now => true
  | .treset _ => true
  | .telapsed _ => true
  | .setduty _ _ _ => true
  | .poll => true
  | .gethum => true
  | .gettemp => true
  | .geterr => true
  | .reset => false
  | .tickEv => false
  | .cmpEv => false
  | .bitEv => false
  | .sample _ => false

/-- One stimulus at the input ports: a pulse on one strobe wire, a sampled level of `line_in`, or a command
word with `cmd_valid` (R40, R99). This is the encoded form of a step. -/
inductive Stimulus where
  | rst
  | irqTick
  | irqCmp
  | bitClk
  | line (lv : Level)
  | cmd (word : Word)
  deriving DecidableEq, Repr

/-- Everything the input ports may carry in one clock cycle (R40, R76). `sampling` says that SensorLink's
polling loop reads `lineIn` in this cycle: `SAMPLE` is an internal step and has no strobe of its own (R99). -/
structure InPorts where
  rst      : Bool
  irqTick  : Bool
  irqCmp   : Bool
  bitClk   : Bool
  sampling : Bool
  lineIn   : Level
  cmdValid : Bool
  cmd      : Word
  deriving DecidableEq, Repr

/-- Why a command word is reserved (30_encoding.md R100, R106). -/
inductive Reserved where
  /-- `Z`, bits 27 to 24, is not 0. -/
  | nonZeroZ
  /-- `OP`, bits 31 to 28, is one of `0x8 .. 0xF`. -/
  | opcode
  /-- An operand byte that must be 0 is not. -/
  | operandByte
  deriving DecidableEq, Repr

end Sys2Proof
end

