-- ==== Sys2Proof/Machine/State.lean ====
section
/-! DEFINITION. The state of the CORE (10_state.md R20), what a step may answer, and the state after reset (R46). -/

namespace Sys2Proof.Machine

/-- The stage of SensorLink, `SL_STATE` (10_state.md R28). -/
inductive SlState where
  | idle
  | reqPulse
  | waitAck0
  | waitAck1
  | waitAck2
  | bitWaitHigh
  | bitWaitLow
  deriving DecidableEq, Repr

/-- The eight outcomes of `POLL` (30_encoding.md R92). -/
inductive ResultCode where
  | success
  | notDue
  | timeoutAck0
  | timeoutAck1
  | timeoutAck2
  | timeoutBitHigh
  | timeoutBitLow
  | checksumError
  deriving DecidableEq, Repr

/-- A PWM channel, index 0, 1, 2 in this order (10_state.md R23, R45). -/
inductive Channel where
  | red
  | green
  | blue
  deriving DecidableEq, Repr

/-- One value for each channel: the register file `DUTY` and the output latches `PWM_OUT` (R23, R26). -/
structure Rgb (α : Type) where
  r : α
  g : α
  b : α
  deriving DecidableEq, Repr

/-- The state: the elements of 10_state.md R20, and three fields of the model's own. The integers that the spec
counts with are `Nat` and their ranges an invariant (`Safety.lean`, R43); what the spec treats as bits is a bit
vector. DESIGN CHOICE, safe (log 7). -/
structure State where
  /-- The configuration (00_scope.md R8). No step writes it. The model's own field (log 4). -/
  params    : Params
  /-- `TICK` (R21). -/
  tick      : Nat
  /-- `SNAP[0 .. N_TIMERS-1]` (R22). -/
  snap      : Vector Nat Config.nTimers
  /-- `DUTY[R, G, B]` (R23). -/
  duty      : Rgb Nat
  /-- `PWM_CNT` (R25). -/
  pwmCnt    : Nat
  /-- `PWM_OUT[R, G, B]` (R26). -/
  pwmOut    : Rgb Level
  /-- `PWM_EN` (R27). -/
  pwmEn     : Bool
  /-- `SL_STATE` (R28). -/
  slState   : SlState
  /-- `BIT_IDX` (R29). -/
  bitIdx    : Nat
  /-- `TO_CNT` (R30). -/
  toCnt     : Nat
  /-- `REQ_CNT` (R31). -/
  reqCnt    : Nat
  /-- `BITCNT` (R32). -/
  bitCnt    : Byte
  /-- `FRAME` (R33). -/
  frame     : Frame
  /-- `LINE_DRV`, true while the CORE drives the line low (R34). -/
  lineDrv   : Bool
  /-- `HUM_VAL` (R35). -/
  humVal    : BitVec 16
  /-- `HUM_VALID` (R35). -/
  humValid  : Bool
  /-- `TEMP_VAL` (R36). -/
  tempVal   : BitVec 16
  /-- `TEMP_VALID` (R36). -/
  tempValid : Bool
  /-- `ERR` (R38). -/
  err       : Byte
  /-- The response port (R41): the word the last step responded with, none if it did not respond. The model's own
  field, DESIGN CHOICE, unsafe (log 3). -/
  rsp       : Option Word
  /-- What the outside world presents next, oldest first (R40). The model's own field, DESIGN CHOICE, safe (log 1). -/
  inputs    : List Stimulus
  deriving DecidableEq, Repr

/-- Nothing faults: 60_exceptions.md R211. No step answers a fault. DEDUCED, safe (log 18). -/
inductive Fault where
  deriving DecidableEq, Repr

/-- Why a step is refused. -/
inductive Refusal where
  /-- Raised by `exec` for a step without a meaning; no arm of this model does. Safe. -/
  | notModelled (mnemonic : String)
  /-- Raised by `step` for a command word that is no row of the table: U8 of 93_implementation_defined.md, "refuse".
  Safe (log 8). -/
  | reservedCommand (why : Reserved)
  /-- Raised by every host operation while a transaction is in progress: 20_memory.md R63 and U9, "refuse".
  Safe (log 9). -/
  | busy
  /-- Raised by `SAMPLE` while no wait stage is active: 42_sensorlink.md R153, R161, the step is not enabled.
  Safe (log 10). -/
  | sampleNotEnabled
  deriving DecidableEq, Repr

/-- The state after `RESET` (10_state.md R46, 70_reset_and_hazards.md R240). Of these the source states only the
snapshots; the others are the spec's own decisions D3, D10 and D22 (log 12). -/
def State.reset : State where
  params    := Params.default
  tick      := 0
  snap      := Vector.replicate Config.nTimers 0
  duty      := ⟨0, 0, 0⟩
  pwmCnt    := 0
  pwmOut    := ⟨false, false, false⟩
  pwmEn     := true
  slState   := .idle
  bitIdx    := 0
  toCnt     := 0
  reqCnt    := 0
  bitCnt    := 0
  frame     := 0
  lineDrv   := false
  humVal    := 0
  humValid  := false
  tempVal   := 0
  tempValid := false
  err       := 0
  rsp       := none
  inputs    := []

end Sys2Proof.Machine
end

