-- ==== Sys2Proof/Machine/Operands.lean ====
section
/-! DEFINITION. The operand forms and the arithmetic of the spec: 00_scope.md R12 to R16, the two operand-addressed
register files (10_state.md R22, R23), the frame (30_encoding.md R94 to R96) and the stages (42_sensorlink.md R151). -/

namespace Sys2Proof.Machine

/-! ## Ticks (R12, R110, R118) -/

/-- The number of values of a tick counter, `2^TICK_W`. -/
def tickRange (p : Params) : Nat := 2 ^ p.tickW

/-- `(TICK + 1) mod 2^TICK_W` (R110). -/
def tickSucc (p : Params) (t : Nat) : Nat := (t + 1) % tickRange p

/-- `sub_W(a, b) = (a - b) mod 2^TICK_W` (R12), written without a negative intermediate. -/
def subW (p : Params) (a b : Nat) : Nat :=
  (a + (tickRange p - b % tickRange p)) % tickRange p

/-- `zext_32` of a number of at most 32 bits (R10, R91). -/
def zext32 (n : Nat) : Word := BitVec.ofNat 32 n

/-! ## Timers (R22, R101 (a)) -/

/-- `SNAP[id]`, and 0 for an id that names no timer. -/
def readSnap (s : State) (id : Nat) : Nat :=
  if h : id < Config.nTimers then s.snap[id] else 0

/-- `SNAP[id] <- v`; an id that names no timer writes nothing. -/
def writeSnap (s : State) (id v : Nat) : State :=
  if h : id < Config.nTimers then { s with snap := s.snap.set id v } else s

/-- The ticks since timer `id` was reset: `sub_W(TICK, SNAP[id])` (R113). -/
def elapsed (s : State) (id : Nat) : Nat := subW s.params s.tick (readSnap s id)

/-- The sensor is due: `sub_W(TICK, SNAP[SENSOR_TIMER]) >= SENSOR_PERIOD` (R154). -/
def sensorDue (s : State) : Bool :=
  decide (s.params.sensorPeriod ≤ elapsed s s.params.sensorTimer.val)

/-! ## Channels (R16, R23, R41) -/

/-- The entry of a channel. -/
def Rgb.get {α : Type} (v : Rgb α) : Channel → α
  | .red => v.r
  | .green => v.g
  | .blue => v.b

/-- A function of two entries, channel by channel. -/
def Rgb.zipWith {α β γ : Type} (f : α → β → γ) (u : Rgb α) (v : Rgb β) : Rgb γ :=
  ⟨f u.r v.r, f u.g v.g, f u.b v.b⟩

/-- `clamp100(d)` (R16). -/
def clamp100 (d : Nat) : Nat := if d > Config.dutyMax then Config.dutyMax else d

/-! ## The sensor frame (R14, R94 to R96) -/

/-- `FRAME[39 - i] <- bit`: the bit of sequence index `i` (R95). -/
def storeBit (f : Frame) (i : Nat) (bit : Bool) : Frame :=
  let mask : Frame := 1#40 <<< (39 - i)
  if bit then f ||| mask else f &&& ~~~mask

/-- Byte `k` of the frame, `FRAME[39-8k : 32-8k]` (R94, R95). -/
def frameByte (f : Frame) (k : Nat) : Byte := f.extractLsb' (32 - 8 * k) 8

/-- `sum8(b0, b1, b2, b3)` (R14). -/
def sum8 (b0 b1 b2 b3 : Byte) : Byte := b0 + b1 + b2 + b3

/-- `b4 = sum8(b0, b1, b2, b3)` (R171). -/
def checksumGood (f : Frame) : Bool :=
  decide (frameByte f 4 = sum8 (frameByte f 0) (frameByte f 1) (frameByte f 2) (frameByte f 3))

/-- `hum_raw = b0 * 256 + b1` (R96). -/
def humRaw (f : Frame) : Nat := (frameByte f 0).toNat * 256 + (frameByte f 1).toNat

/-- `temp_raw = b2 * 256 + b3` (R96). -/
def tempRaw (f : Frame) : Nat := (frameByte f 2).toNat * 256 + (frameByte f 3).toNat

/-- `tflag = b2[7]` (R96, R176). -/
def tempFlag (f : Frame) : Bool := (frameByte f 2).getLsbD 7

/-- `div10r(x)`: division by ten, round half up (R13). -/
def div10r (x : Nat) : Nat := x / 10 + (if x % 10 ≥ 5 then 1 else 0)

/-! ## Stages and result codes (R92, R151) -/

/-- For a wait stage, the level it awaits and the code its timeout aborts with (R151); none for the other two. -/
def SlState.wait : SlState → Option (Level × ResultCode)
  | .idle => none
  | .reqPulse => none
  | .waitAck0 => some (false, .timeoutAck0)
  | .waitAck1 => some (true, .timeoutAck1)
  | .waitAck2 => some (false, .timeoutAck2)
  | .bitWaitHigh => some (true, .timeoutBitHigh)
  | .bitWaitLow => some (false, .timeoutBitLow)

/-- The 3-bit number of a result code (R92). -/
def ResultCode.code : ResultCode → BitVec 3
  | .success => 0
  | .notDue => 1
  | .timeoutAck0 => 2
  | .timeoutAck1 => 3
  | .timeoutAck2 => 4
  | .timeoutBitHigh => 5
  | .timeoutBitLow => 6
  | .checksumError => 7

/-- The response word of a result code: `rsp[2:0]` is the code, the rest 0 (R91). -/
def ResultCode.word (c : ResultCode) : Word := (ResultCode.code c).zeroExtend 32

/-- The response word of a cached reading: `rsp[16]` is the flag, `rsp[15:0]` the value (R91, R192, R193). -/
def readingWord (valid : Bool) (value : BitVec 16) : Word :=
  0#15 ++ (BitVec.ofBool valid ++ value)

end Sys2Proof.Machine
end

