-- ==== Sys2Proof/Machine/Flags.lean ====
section
/-! DEFINITION. The one-bit state: what sets and clears each bit (10_state.md R39), and how a sampled bit is
decided (30_encoding.md R97). -/

namespace Sys2Proof.Machine

/-- `BUSY`, the derived predicate `SL_STATE != Idle` (R37). -/
def State.busy (s : State) : Bool := decide (s.slState ≠ .idle)

/-- `PWM_OUT[c]` at the wrap: asserted if the duty is not 0, else as it was (R133 sub-step 2). -/
def assertAtWrap (duty : Nat) (out : Level) : Level := if duty ≠ 0 then true else out

/-- `PWM_OUT[c]` at the match: cleared if the new count is the duty, else as it was (R133 sub-step 3). -/
def clearAtMatch (n duty : Nat) (out : Level) : Level := if n = duty then false else out

/-- A validity flag after an error: cleared once the new error count exceeds `MAX_ERRORS` (R198 sub-step 3). -/
def validAfterError (p : Params) (e : Byte) (valid : Bool) : Bool :=
  if e.toNat > p.maxErrors then false else valid

/-- `TEMP_VALID` after a success: the frame's temperature flag inverted (R197). -/
def tempValidAfterSuccess (tflag : Bool) : Bool := !tflag

/-- The bit a slot of `count` bit-timer counts stands for: 1 above the threshold, 0 at or below it (R97, R167). -/
def slotBit (p : Params) (count : Byte) : Bool := decide (count.toNat > p.bitThreshold)

end Sys2Proof.Machine
end

