-- ==== Sys2Proof/Machine/Ops.lean ====
section
/-! DEFINITION. The operations the meanings share: accepting a host operation, the response port, and the sequences
by which a transaction ends (60_exceptions.md R214, 42_sensorlink.md R169, R170, 43_resultcache.md R195 to R198). -/

namespace Sys2Proof.Machine

/-! ## The host port (20_memory.md R62, R63; 30_encoding.md R91) -/

/-- `respond v`: the response word of this step (R11). -/
def respond (v : Word) (s : State) : State := { s with rsp := some v }

/-- A step that does not respond leaves no word at the response port (R41, log 3). -/
def noResponse (s : State) : State := { s with rsp := none }

/-- A host operation is accepted only while no transaction is in progress (R63); while `BUSY` it is refused (U9). -/
def hostOp (s : State) (effect : State → State) : Host.Outcome State Fault Refusal :=
  if State.busy s then .refused .busy else .next (effect s)

/-! ## The cache (43_resultcache.md) -/

/-- `sat_inc(e)` (R15). -/
def satInc (e : Byte) : Byte := if e = 255 then 255 else e + 1

/-- The error sequence (R198): count the error, and past `MAX_ERRORS` trust neither reading. -/
def errorSequence (s : State) : State :=
  let e := satInc s.err
  { s with
    err := e
    humValid := validAfterError s.params e s.humValid
    tempValid := validAfterError s.params e s.tempValid }

/-- The humidity update (R196). -/
def humidityUpdate (raw : Nat) (s : State) : State :=
  { s with humVal := BitVec.ofNat 16 (div10r raw), humValid := true }

/-- The temperature update (R197): with the flag set the reading is marked invalid and the value kept. -/
def temperatureUpdate (tflag : Bool) (raw : Nat) (s : State) : State :=
  { s with
    tempVal := if tflag then s.tempVal else BitVec.ofNat 16 (div10r raw)
    tempValid := tempValidAfterSuccess tflag }

/-- The success sequence (R195). -/
def successSequence (hum : Nat) (tflag : Bool) (temp : Nat) (s : State) : State :=
  { temperatureUpdate tflag temp (humidityUpdate hum s) with err := 0 }

/-! ## The ways out of a transaction -/

/-- Taking an exception: the abort sequence `abort(code)` (60_exceptions.md R214). Nothing is saved and there is no
handler; the code is the response to the `POLL` that opened the transaction (R215, R216). -/
def abort (code : ResultCode) (s : State) : State :=
  respond (ResultCode.word code)
    { errorSequence s with lineDrv := false, pwmEn := true, slState := .idle }

/-- The end sequence of a successful transaction (R170). There is no other return (R216). -/
def endSuccess (s : State) : State :=
  respond (ResultCode.word .success) { s with pwmEn := true, slState := .idle }

/-- The completion sequence on the 40 bits of `FRAME` (R169). -/
def completion (s : State) : State :=
  if checksumGood s.frame then
    endSuccess (successSequence (humRaw s.frame) (tempFlag s.frame) (tempRaw s.frame) s)
  else
    abort .checksumError s

/-- Entry to a wait stage: the stage's timeout counter starts at 0 (10_state.md R30). -/
def enterStage (st : SlState) (s : State) : State := { s with slState := st, toCnt := 0 }

end Sys2Proof.Machine
end

