-- ==== Sys2Proof/Machine/Pwm.lean ====
section
/-! DEFINITION. DutyTable and the PWM duty generator (41_pwm.md): `SETDUTY`, `CMP_EV`. -/

namespace Sys2Proof.Machine

/-- `SETDUTY r, g, b` (R132). -/
def execSetduty (r g b : Nat) (s : State) : Host.Outcome State Fault Refusal :=
  hostOp s fun s => respond 0 { s with duty := ⟨clamp100 r, clamp100 g, clamp100 b⟩ }

/-- The PWM cycle closes at this sub-cycle tick: `PWM_CNT + 1 >= PWM_PERIOD` (R133 sub-step 2). -/
def pwmWraps (s : State) : Bool := decide (s.pwmCnt + 1 ≥ Config.pwmPeriod)

/-- One PWM sub-cycle tick (R133), sub-steps in order: count, at the wrap assert, at the match clear. -/
def pwmSubCycle (s : State) : State :=
  let n := if pwmWraps s then 0 else s.pwmCnt + 1
  let asserted := if pwmWraps s then Rgb.zipWith assertAtWrap s.duty s.pwmOut else s.pwmOut
  { s with pwmOut := Rgb.zipWith (clearAtMatch n) s.duty asserted, pwmCnt := n }

/-- `CMP_EV`: effective with `PWM_EN = 1` (R133), dropped with `PWM_EN = 0` (R134). -/
def execCmpEv (s : State) : Host.Outcome State Fault Refusal :=
  .next (if s.pwmEn then pwmSubCycle (noResponse s) else noResponse s)

end Sys2Proof.Machine
end

