-- ==== Sys2Proof/Machine/ResetStep.lean ====
section
/-! DEFINITION. The step `RESET` (70_reset_and_hazards.md R240). -/

namespace Sys2Proof.Machine

/-- `RESET` (R240): every element of R20 to its reset value, no response. The configuration and the stimuli still
to come are not state of the CORE and stay (log 22). -/
def execReset (s : State) : Host.Outcome State Fault Refusal :=
  .next { s with
    tick := 0
    snap := Vector.replicate Config.nTimers 0
    duty := ⟨0, 0, 0⟩
    pwmOut := ⟨false, false, false⟩
    pwmCnt := 0
    pwmEn := true
    slState := .idle
    bitIdx := 0
    toCnt := 0
    reqCnt := 0
    bitCnt := 0
    frame := 0
    lineDrv := false
    humVal := 0
    humValid := false
    tempVal := 0
    tempValid := false
    err := 0
    rsp := none }

end Sys2Proof.Machine
end

