-- ==== Sys2Proof/Machine/ResultCache.lean ====
section
/-! DEFINITION. The read operations of SensorResultCache (43_resultcache.md): `GETHUM`, `GETTEMP`, `GETERR`. -/

namespace Sys2Proof.Machine

/-- `GETHUM` (R192). The value is returned whether or not it is valid (U3, log 16). -/
def execGethum (s : State) : Host.Outcome State Fault Refusal :=
  hostOp s fun s => respond (readingWord s.humValid s.humVal) s

/-- `GETTEMP` (R193). The value is returned whether or not it is valid (U3, log 16). -/
def execGettemp (s : State) : Host.Outcome State Fault Refusal :=
  hostOp s fun s => respond (readingWord s.tempValid s.tempVal) s

/-- `GETERR` (R194): reading does not clear the counter. -/
def execGeterr (s : State) : Host.Outcome State Fault Refusal :=
  hostOp s fun s => respond (s.err.zeroExtend 32) s

end Sys2Proof.Machine
end

