-- ==== Sys2Proof/Machine/SensorLink.lean ====
section
/-! DEFINITION. SensorLink (42_sensorlink.md): `POLL`, `BIT_EV`, `SAMPLE`. -/

namespace Sys2Proof.Machine

/-- The opening of a transaction (R155, the sensor due). `BITCNT` is not touched. -/
def openTransaction (s : State) : State :=
  { writeSnap s s.params.sensorTimer.val s.tick with
    pwmEn := false
    lineDrv := true
    slState := .reqPulse
    reqCnt := 0
    bitIdx := 0
    toCnt := 0
    frame := 0 }

/-- `POLL` (R155). The `POLL` that opens a transaction does not respond; the step that ends the transaction does. -/
def execPoll (s : State) : Host.Outcome State Fault Refusal :=
  hostOp s fun s =>
    if sensorDue s then noResponse (openTransaction s) else respond (ResultCode.word .notDue) s

/-- `BIT_EV` (R160). -/
def execBitEv (s : State) : Host.Outcome State Fault Refusal :=
  .next { noResponse s with bitCnt := s.bitCnt + 1 }

/-- A miss (R162): the miss that would bring the counter to `SENS_TIMEOUT` aborts with the stage's code. -/
def sampleMiss (code : ResultCode) (s : State) : State :=
  if s.toCnt + 1 = s.params.sensTimeout then abort code s else { s with toCnt := s.toCnt + 1 }

/-- The end of bit slot `BIT_IDX` (R167, R168): store the bit, go on to the next slot or complete.
An index above 39 cannot be reached and is treated as 39 (log 17). -/
def slotEnd (s : State) : State :=
  let bit := slotBit s.params s.bitCnt
  if s.bitIdx < 39 then
    { enterStage .bitWaitHigh s with
      frame := storeBit s.frame s.bitIdx bit
      bitIdx := s.bitIdx + 1 }
  else
    completion { s with frame := storeBit s.frame s.bitIdx bit }

/-- The match rule of each stage (R163 to R168). -/
def sampleMatch (s : State) : State :=
  match s.slState with
  | .idle => s
  | .reqPulse => s
  | .waitAck0 => enterStage .waitAck1 s
  | .waitAck1 => enterStage .waitAck2 s
  | .waitAck2 => { enterStage .bitWaitHigh s with bitIdx := 0 }
  | .bitWaitHigh => { enterStage .bitWaitLow s with bitCnt := 0 }
  | .bitWaitLow => slotEnd s

/-- `SAMPLE(lv)` (R161): enabled only in a wait stage (R153); a match if the level is the awaited one. -/
def execSample (lv : Level) (s : State) : Host.Outcome State Fault Refusal :=
  match SlState.wait s.slState with
  | none => .refused .sampleNotEnabled
  | some (awaited, code) =>
    .next (if lv = awaited then sampleMatch (noResponse s) else sampleMiss code (noResponse s))

end Sys2Proof.Machine
end

