-- ==== Sys2Proof/Machine/TimerBank.lean ====
section
/-! DEFINITION. TickClock and TimerBank (40_tickclock_timerbank.md): `TICK_EV`, `NOW`, `TRESET`, `TELAPSED`. -/

namespace Sys2Proof.Machine

/-- `TICK_EV` in `ReqPulse`: count the request pulse and release the line at its `REQ_LOW`-th tick
(42_sensorlink.md R159). -/
def countRequestPulse (s : State) : State :=
  if s.reqCnt + 1 = s.params.reqLow then
    { enterStage .waitAck0 s with lineDrv := false, reqCnt := 0 }
  else
    { s with reqCnt := s.reqCnt + 1 }

/-- `TICK_EV` (R110). -/
def execTickEv (s : State) : Host.Outcome State Fault Refusal :=
  let ticked := { noResponse s with tick := tickSucc s.params s.tick }
  .next (if ticked.slState = .reqPulse then countRequestPulse ticked else ticked)

/-- `NOW` (R111). -/
def execNow (s : State) : Host.Outcome State Fault Refusal :=
  hostOp s fun s => respond (zext32 s.tick) s

/-- `TRESET id` (R112). -/
def execTreset (id : Nat) (s : State) : Host.Outcome State Fault Refusal :=
  hostOp s fun s => respond 0 (writeSnap s id s.tick)

/-- `TELAPSED id` (R113). -/
def execTelapsed (id : Nat) (s : State) : Host.Outcome State Fault Refusal :=
  hostOp s fun s => respond (if id < Config.nTimers then zext32 (elapsed s id) else 0) s

end Sys2Proof.Machine
end

