-- ==== Sys2Proof/Machine/Dispatch.lean ====
section
/-! DEFINITION. The meaning of every step of 00_scope.md R6. -/

namespace Sys2Proof.Machine

def exec (i : Instr) (s : State) : Host.Outcome State Fault Refusal :=
  match i with
  | .now => Sys2Proof.Machine.execNow s
  | .treset id => Sys2Proof.Machine.execTreset id s
  | .telapsed id => Sys2Proof.Machine.execTelapsed id s
  | .setduty r g b => Sys2Proof.Machine.execSetduty r g b s
  | .poll => Sys2Proof.Machine.execPoll s
  | .gethum => Sys2Proof.Machine.execGethum s
  | .gettemp => Sys2Proof.Machine.execGettemp s
  | .geterr => Sys2Proof.Machine.execGeterr s
  | .reset => Sys2Proof.Machine.execReset s
  | .tickEv => Sys2Proof.Machine.execTickEv s
  | .cmpEv => Sys2Proof.Machine.execCmpEv s
  | .bitEv => Sys2Proof.Machine.execBitEv s
  | .sample lv => Sys2Proof.Machine.execSample lv s

end Sys2Proof.Machine
end

