-- ==== Sys2Proof/WellFormed.lean ====
section
/-! DEFINITION. Which steps have an encoding: every operand fits its operand byte (30_encoding.md R84 to R86, R93). -/

namespace Sys2Proof

/-- An operand fits one byte of the command word: it is in `0 .. 255` (R84 to R86). -/
def fitsByte (n : Nat) : Bool := decide (n < 256)

/-- Every operand of the step fits the field that carries it. A timer id of 4 or more and a duty above 100 are
well formed: they are encodable and defined (R101). -/
def Instr.wf : Instr → Bool
  | .now => true
  | .treset id => fitsByte id
  | .telapsed id => fitsByte id
  | .setduty r g b => fitsByte r && fitsByte g && fitsByte b
  | .poll => true
  | .gethum => true
  | .gettemp => true
  | .geterr => true
  | .reset => true
  | .tickEv => true
  | .cmpEv => true
  | .bitEv => true
  | .sample _ => true

end Sys2Proof
end

