-- ==== Sys2Proof/Decode.lean ====
section
/-! DEFINITION. The decoder of 30_encoding.md R106, total on every command word and rejecting by name, the strobes
of R99, and the encoder written from R83 to R90 and R99. -/

namespace Sys2Proof

/-! ## Fields of the command word (R81) -/

/-- `OP = cmd[31:28]`. -/
def fieldOp (w : Word) : BitVec 4 := w.extractLsb' 28 4

/-- `Z = cmd[27:24]`. -/
def fieldZ (w : Word) : BitVec 4 := w.extractLsb' 24 4

/-- `A = cmd[23:16]`. -/
def fieldA (w : Word) : Byte := w.extractLsb' 16 8

/-- `B = cmd[15:8]`. -/
def fieldB (w : Word) : Byte := w.extractLsb' 8 8

/-- `C = cmd[7:0]`. -/
def fieldC (w : Word) : Byte := w.extractLsb' 0 8

/-! ## Decoding -/

/-- A command word whose three operand bytes must be 0 (R81, R106). -/
def decodeNoOperand (w : Word) (i : Instr) : Except Reserved Instr :=
  if fieldA w = 0 ∧ fieldB w = 0 ∧ fieldC w = 0 then .ok i else .error .operandByte

/-- A command word with the timer id in byte C; bytes A and B must be 0 (R84, R85, R106). -/
def decodeTimerId (w : Word) (mk : Nat → Instr) : Except Reserved Instr :=
  if fieldA w = 0 ∧ fieldB w = 0 then .ok (mk (fieldC w).toNat) else .error .operandByte

/-- The decoder of command words (R106). -/
def decodeCmd (w : Word) : Except Reserved Instr :=
  if fieldZ w ≠ 0 then .error .nonZeroZ
  else match (fieldOp w).toNat with
    | 0 => decodeNoOperand w .now
    | 1 => decodeTimerId w .treset
    | 2 => decodeTimerId w .telapsed
    | 3 => .ok (.setduty (fieldA w).toNat (fieldB w).toNat (fieldC w).toNat)
    | 4 => decodeNoOperand w .poll
    | 5 => decodeNoOperand w .gethum
    | 6 => decodeNoOperand w .gettemp
    | 7 => decodeNoOperand w .geterr
    | _ => .error .opcode

/-- The step a stimulus stands for: a strobe or a sampled level names its step by its wire (R99), a command word
is decoded. -/
def decode : Stimulus → Except Reserved Instr
  | .rst => .ok .reset
  | .irqTick => .ok .tickEv
  | .irqCmp => .ok .cmpEv
  | .bitClk => .ok .bitEv
  | .line lv => .ok (.sample lv)
  | .cmd w => decodeCmd w

/-! ## Encoding -/

/-- The command word with operation code `op`, `Z = 0` and operand bytes `a`, `b`, `c` (R81). -/
def cmdWord (op : BitVec 4) (a b c : Nat) : Word :=
  op ++ (0#4 ++ (BitVec.ofNat 8 a ++ (BitVec.ofNat 8 b ++ BitVec.ofNat 8 c)))

/-- The stimulus that stands for a step (R83 to R90, R99). -/
def encode : Instr → Stimulus
  | .now => .cmd (cmdWord 0x0 0 0 0)
  | .treset id => .cmd (cmdWord 0x1 0 0 id)
  | .telapsed id => .cmd (cmdWord 0x2 0 0 id)
  | .setduty r g b => .cmd (cmdWord 0x3 r g b)
  | .poll => .cmd (cmdWord 0x4 0 0 0)
  | .gethum => .cmd (cmdWord 0x5 0 0 0)
  | .gettemp => .cmd (cmdWord 0x6 0 0 0)
  | .geterr => .cmd (cmdWord 0x7 0 0 0)
  | .reset => .rst
  | .tickEv => .irqTick
  | .cmpEv => .irqCmp
  | .bitEv => .bitClk
  | .sample lv => .line lv

/-! ## The words of spec/opcode_table.json -/

/-- The stimulus that a word of the opcode table stands for, given how many bits the table gives the row.
A row of format CMD has 32 bits: the command word. The row SAMPLE has one bit, `lv`, in one byte. The four
strobes have no bits: each is a pulse on a wire of its own, and a word cannot name the wire.
DESIGN CHOICE, safe (log 11). -/
def tableStimulus (nbits w : Nat) : Option Stimulus :=
  if nbits = 0 then none
  else if nbits ≤ 8 then (if w < 2 then some (.line (decide (w = 1))) else none)
  else if nbits ≤ 32 then (if w < 2 ^ 32 then some (.cmd (BitVec.ofNat 32 w)) else none)
  else none

/-- The step the decoder reads from a word of the opcode table. -/
def decodeTableWord (nbits w : Nat) : Option Instr :=
  match tableStimulus nbits w with
  | none => none
  | some x => (decode x).toOption

end Sys2Proof
end

