-- ==== Sys2Proof/Machine/Ports.lean ====
section
/-! DEFINITION. The ports (10_state.md R40, R41): taking the next stimulus, serialising a clock cycle
(20_memory.md R76), and the output pins. -/

namespace Sys2Proof.Machine

/-! ## Inputs -/

/-- The oldest stimulus still to come, and the state without it; none if the outside world presents nothing. -/
def nextStimulus (s : State) : Option (Stimulus × State) :=
  match s.inputs with
  | [] => none
  | x :: rest => some (x, { s with inputs := rest })

/-- The stimuli of one clock cycle in the order of R76: `RESET` alone, everything else in that cycle discarded;
else `TICK_EV`, `BIT_EV`, `CMP_EV`, `SAMPLE`, the host operation. -/
def serialise (c : InPorts) : List Stimulus :=
  if c.rst then [.rst]
  else
    (if c.irqTick then [.irqTick] else []) ++
    (if c.bitClk then [.bitClk] else []) ++
    (if c.irqCmp then [.irqCmp] else []) ++
    (if c.sampling then [.line c.lineIn] else []) ++
    (if c.cmdValid then [.cmd c.cmd] else [])

/-- A clock cycle of the ports, presented after everything presented before it. -/
def present (c : InPorts) (s : State) : State := { s with inputs := s.inputs ++ serialise c }

/-- The state with the stimulus of an opcode-table word put where the next step takes its stimulus from. -/
def presentTableWord (s : State) (nbits w : Nat) : State :=
  match tableStimulus nbits w with
  | none => s
  | some x => { s with inputs := x :: s.inputs }

/-! ## Outputs (R41) -/

/-- `pwm_out[2:0] = {PWM_OUT[B], PWM_OUT[G], PWM_OUT[R]}`. -/
def pwmOutPins (s : State) : BitVec 3 :=
  BitVec.ofBool s.pwmOut.b ++ (BitVec.ofBool s.pwmOut.g ++ BitVec.ofBool s.pwmOut.r)

/-- `line_drive_low`. -/
def lineDriveLow (s : State) : Level := s.lineDrv

/-- `rsp_valid`. -/
def rspValid (s : State) : Bool := s.rsp.isSome

/-- `busy`. -/
def busyPin (s : State) : Bool := State.busy s

end Sys2Proof.Machine
end

