-- ==== Sys2Proof/Machine/Step.lean ====
section
/-! DEFINITION. One step of the machine: take the oldest stimulus, decode it, run the step it stands for. -/

namespace Sys2Proof.Machine

/-- One step (00_scope.md R6, 20_memory.md R60). A reserved command word is refused (U8). When the outside world
presents nothing there is no step of the CORE, and only the response port falls idle (log 2). -/
def step (s : State) : Host.Outcome State Fault Refusal :=
  match nextStimulus s with
  | none => .next (noResponse s)
  | some (x, s') =>
    match decode x with
    | .ok i => exec i s'
    | .error why => .refused (.reservedCommand why)

/-- `s` with the stimulus of an opcode-table word as the next one to be taken (log 1, log 11). -/
def State.withFetchWord (s : State) (nbits w : Nat) : State := presentTableWord s nbits w

end Sys2Proof.Machine
end

