-- ==== Sys2Proof/Safety.lean ====
section
/-! DEFINITION. What claims are stated in: the invariant of 10_state.md R43, runs of steps, and the notions the
rules about runs use (40_tickclock_timerbank.md R116, 41_pwm.md R135, 42_sensorlink.md R177). -/

namespace Sys2Proof.Machine

/-! ## The invariant -/

/-- Every tick value fits `TICK_W` bits (R21, R22). -/
abbrev TicksInRange (s : State) : Prop :=
  s.tick < tickRange s.params ∧ ∀ i : Fin Config.nTimers, readSnap s i.val < tickRange s.params

/-- R43 (a) and (b): duties and the PWM count are in their ranges. -/
abbrev PwmInRange (s : State) : Prop :=
  s.duty.r ≤ 100 ∧ s.duty.g ≤ 100 ∧ s.duty.b ≤ 100 ∧ s.pwmCnt ≤ 99

/-- R43 (c) and (d): PWM generation is gated exactly during a transaction, and the line is driven exactly during
the request pulse. -/
abbrev GatesFollowStage (s : State) : Prop :=
  (s.pwmEn = false ↔ s.slState ≠ .idle) ∧ (s.lineDrv = true ↔ s.slState = .reqPulse)

/-- R43 (e): SensorLink's counters are in their ranges. -/
abbrev CountersInRange (s : State) : Prop :=
  s.toCnt < s.params.sensTimeout ∧ s.reqCnt < s.params.reqLow ∧ s.bitIdx ≤ 39

/-- R43 (f) and (g), and R203: the cached values are in their ranges, nothing is trusted past the error threshold,
and a valid temperature comes with a valid humidity. -/
abbrev CacheSound (s : State) : Prop :=
  s.humVal.toNat ≤ 6554 ∧ s.tempVal.toNat ≤ 3277 ∧
  (s.params.maxErrors < s.err.toNat → s.humValid = false ∧ s.tempValid = false) ∧
  (s.tempValid = true → s.humValid = true)

/-- The invariant of R43 (with R203 and the widths of R20), for a machine with admissible parameters (R8). -/
abbrev StateInv (s : State) : Prop :=
  s.params.Valid ∧ TicksInRange s ∧ PwmInRange s ∧ GatesFollowStage s ∧ CountersInRange s ∧ CacheSound s

/-! ## Runs -/

/-- The steps of a list one after the other, stopping at the first that is refused (R60, R73). -/
def run : List Instr → State → Host.Outcome State Fault Refusal
  | [], s => .next s
  | i :: is, s =>
    match exec i s with
    | .next t => run is t
    | .fault f => .fault f
    | .refused r => .refused r

/-- The state without its response port: what "the same state" means in rules about state alone. -/
def State.silent (s : State) : State := { s with rsp := none }

/-- The events of a clock cycle without `rst`, each if its input is set, in the order of 20_memory.md R76. The host
operation of the cycle, if there is one, comes after them. -/
def cycleEvents (c : InPorts) : List Instr :=
  ([(c.irqTick, .tickEv), (c.bitClk, .bitEv), (c.irqCmp, .cmpEv), (c.sampling, .sample c.lineIn)].filter
    Prod.fst).map Prod.snd

/-- The step is a `SAMPLE`. -/
def isSample : Instr → Bool
  | .sample _ => true
  | .now => false
  | .treset _ => false
  | .telapsed _ => false
  | .setduty _ _ _ => false
  | .poll => false
  | .gethum => false
  | .gettemp => false
  | .geterr => false
  | .reset => false
  | .tickEv => false
  | .cmpEv => false
  | .bitEv => false

/-- The step is an event that may occur while a transaction is in progress, `RESET` apart (R63). -/
def isTransactionEvent (i : Instr) : Bool :=
  isSample i || decide (i = .tickEv) || decide (i = .cmpEv) || decide (i = .bitEv)

/-! ## Timers (R12, R116) -/

/-- `sub_W(TICK, SNAP[id])` as R12 writes it: the difference of two integers, modulo `2^TICK_W`. -/
def ticksSince (s : State) (id : Fin Config.nTimers) : Nat :=
  (((s.tick : Int) - (s.snap[id] : Int)) % ((2 ^ s.params.tickW : Nat) : Int)).toNat

/-- The condition of R154 on the integers of R12. -/
def SensorIsDue (s : State) : Prop := s.params.sensorPeriod ≤ ticksSince s s.params.sensorTimer

/-- The step restarts timer `id` in this state: `RESET`, `TRESET id`, or, for the sensor timer, a due `POLL`. -/
def restartsTimer (id : Nat) (i : Instr) (s : State) : Bool :=
  decide (i = .reset) || decide (i = .treset id) ||
    (decide (i = .poll) && decide (id = s.params.sensorTimer.val) && sensorDue s)

/-- No step of the run restarts timer `id`. -/
def neverRestarts (id : Nat) : List Instr → State → Bool
  | [], _ => true
  | i :: is, s =>
    !restartsTimer id i s &&
      match exec i s with
      | .next t => neverRestarts id is t
      | .fault _ => true
      | .refused _ => true

/-! ## The PWM waveform (R135) -/

/-- Every channel is asserted exactly while the count is below its duty: the steady state of R135. -/
def Waveform (s : State) : Prop :=
  ∀ c : Channel, Rgb.get s.pwmOut c = decide (s.pwmCnt < Rgb.get s.duty c)

/-- The level of a channel after `k + 1` compare events. -/
def levelAfter (c : Channel) (s : State) (k : Nat) : Bool :=
  match run (List.replicate (k + 1) .cmpEv) s with
  | .next t => Rgb.get t.pwmOut c
  | .fault _ => false
  | .refused _ => false

/-- In how many of the next `PWM_PERIOD` sub-cycle intervals a channel is asserted. -/
def assertedIntervals (c : Channel) (s : State) : Nat :=
  ((List.range Config.pwmPeriod).filter (levelAfter c s)).length

/-! ## Transactions (R97, R98, R177) -/

/-- The slot of one bit in which the bit timer counts `n` times (R97). -/
def slotSteps (n : Nat) : List Instr :=
  .sample true :: (List.replicate n .bitEv ++ [.sample false])

/-- A whole transaction with an acknowledging peer: the opening `POLL`, the request pulse, the acknowledgment, and
one slot for each count (R98). -/
def transactionSteps (reqLow : Nat) (counts : List Nat) : List Instr :=
  .poll :: (List.replicate reqLow .tickEv ++
    ([.sample false, .sample true, .sample false] ++ counts.flatMap slotSteps))

/-- A transaction whose peer never pulls the line low: the opening `POLL`, the request pulse, and samples that all
read high. -/
def unansweredSteps (reqLow sensTimeout : Nat) : List Instr :=
  .poll :: (List.replicate reqLow .tickEv ++ List.replicate sensTimeout (.sample true))

/-- How many `SAMPLE` steps a run contains. -/
def sampleCount (is : List Instr) : Nat := is.countP isSample

/-- How many `TICK_EV` steps a run contains. -/
def tickCount (is : List Instr) : Nat := is.count .tickEv

/-! ## What later steps can depend on (R44, U14) -/

/-- The state without the working registers that no later step reads: `BITCNT` outside a bit slot, and in `Idle`
also `BIT_IDX`, `TO_CNT`, `REQ_CNT` and `FRAME` (R33, R44, R170). -/
def observable (s : State) : State :=
  let u := if s.slState = .bitWaitLow then s else { s with bitCnt := 0 }
  if s.slState = .idle then { u with bitIdx := 0, toCnt := 0, reqCnt := 0, frame := 0 } else u

/-- Two outcomes that no later step can tell apart. -/
def sameOutcome : Host.Outcome State Fault Refusal → Host.Outcome State Fault Refusal → Prop
  | .next s, .next t => observable s = observable t
  | .refused a, .refused b => a = b
  | .next _, .refused _ => False
  | .next _, .fault _ => False
  | .refused _, .next _ => False
  | .refused _, .fault _ => False
  | .fault _, .next _ => False
  | .fault _, .refused _ => False
  | .fault _, .fault _ => False

end Sys2Proof.Machine
end

