-- ==== Sys2Proof/Certificates/Slice0/Obligations.lean ====
section
/-! DEFINITION. The statements for the provers. Each docstring names the rule of spec/ it comes from. Where it says
"spec decision D<n>", the clause rests on a choice that the spec marks as its own in 92_eei_decisions.md; where it
says "log <n>", on a choice of this model. Where a next state has `rsp := none`, the step does not respond; that the
port then holds no word is log 3 in every statement. Where `StateInv` is a premise, its bounds on `REQ_LOW` are
log 6. -/

open Sys2Proof Sys2Proof.Machine

/-! ## Encodings (30_encoding.md) -/

/-- Every step that has an encoding is read back from it, with every operand. -/
def Obligations.DecodeOfEncodeIsIdentity : Prop :=
  ∀ i : Instr, i.wf = true → decode (encode i) = .ok i

/-- A stimulus that decodes stands for one well-formed step and is that step's encoding: no bit of a word is
dropped. -/
def Obligations.DecodedStimulusReencodes : Prop :=
  ∀ (x : Stimulus) (i : Instr), decode x = .ok i → i.wf = true ∧ encode i = x

/-- Which command words are reserved (R100, R106), said on the fields of the word. -/
def Obligations.ReservedWordsAreThoseOfTheRule : Prop :=
  ∀ w : Word,
    (∃ why, decode (.cmd w) = .error why) ↔
      (w.extractLsb' 24 4 ≠ 0 ∨
       8 ≤ (w.extractLsb' 28 4).toNat ∨
       ((w.extractLsb' 28 4).toNat ∈ [0, 4, 5, 6, 7] ∧ w.extractLsb' 0 24 ≠ 0) ∨
       ((w.extractLsb' 28 4).toNat ∈ [1, 2] ∧ w.extractLsb' 8 16 ≠ 0))

/-- The match and mask of each row (R83 to R90): a word decodes to the row's operation exactly when it matches. -/
def Obligations.CommandWordsMatchTheirRows : Prop :=
  ∀ w : Word,
    (decode (.cmd w) = .ok .now ↔ w &&& 0xFFFFFFFF#32 = 0x00000000#32) ∧
    (∀ id, decode (.cmd w) = .ok (.treset id) ↔
      (w &&& 0xFFFFFF00#32 = 0x10000000#32 ∧ id = (w &&& 0xFF#32).toNat)) ∧
    (∀ id, decode (.cmd w) = .ok (.telapsed id) ↔
      (w &&& 0xFFFFFF00#32 = 0x20000000#32 ∧ id = (w &&& 0xFF#32).toNat)) ∧
    (∀ r g b, decode (.cmd w) = .ok (.setduty r g b) ↔
      (w &&& 0xFF000000#32 = 0x30000000#32 ∧ r = ((w >>> 16) &&& 0xFF#32).toNat ∧
        g = ((w >>> 8) &&& 0xFF#32).toNat ∧ b = (w &&& 0xFF#32).toNat)) ∧
    (decode (.cmd w) = .ok .poll ↔ w &&& 0xFFFFFFFF#32 = 0x40000000#32) ∧
    (decode (.cmd w) = .ok .gethum ↔ w &&& 0xFFFFFFFF#32 = 0x50000000#32) ∧
    (decode (.cmd w) = .ok .gettemp ↔ w &&& 0xFFFFFFFF#32 = 0x60000000#32) ∧
    (decode (.cmd w) = .ok .geterr ↔ w &&& 0xFFFFFFFF#32 = 0x70000000#32)

/-- The worked encodings of R107, and the wires of R99. -/
def Obligations.WorkedEncodingsDecode : Prop :=
  decode (.cmd 0x10000002) = .ok (.treset 2) ∧
  decode (.cmd 0x20000003) = .ok (.telapsed 3) ∧
  decode (.cmd 0x200000C8) = .ok (.telapsed 200) ∧
  decode (.cmd 0x30001E64) = .ok (.setduty 0 30 100) ∧
  decode (.cmd 0x30FF0065) = .ok (.setduty 255 0 101) ∧
  decode (.cmd 0x01000000) = .error .nonZeroZ ∧
  decode (.cmd 0x40000001) = .error .operandByte ∧
  decode (.cmd 0x80000000) = .error .opcode ∧
  decode .irqTick = .ok .tickEv ∧
  decode (.line true) = .ok (.sample true)

/-- The frame's bytes and fields (R95, R96): the bit of sequence index `i` is bit `7 - (i mod 8)` of byte `i / 8`, and
the fields as numbers read off the 40 bits. -/
def Obligations.FrameBytesAndFieldsAreBigEndian : Prop :=
  ∀ f : Frame,
    (∀ i, i < 40 → (frameByte f (i / 8)).getLsbD (7 - i % 8) = f.getLsbD (39 - i)) ∧
    humRaw f = f.toNat / 2 ^ 24 ∧
    tempRaw f = f.toNat / 2 ^ 8 % 2 ^ 16 ∧
    tempFlag f = f.getLsbD 23 ∧
    (tempFlag f = false → tempRaw f ≤ 32767) ∧
    (frameByte f 4).toNat = f.toNat % 2 ^ 8

/-- The checksum law (R14, R171), on numbers. -/
def Obligations.ChecksumIsTheSumModulo256 : Prop :=
  ∀ f : Frame,
    checksumGood f = true ↔
      f.toNat % 256 =
        (f.toNat / 2 ^ 32 + f.toNat / 2 ^ 24 % 256 + f.toNat / 2 ^ 16 % 256 + f.toNat / 2 ^ 8 % 256) % 256

/-! ## The step and the ports (10_state.md R40, R41, 20_memory.md R60, R76; logs 1, 2, 3) -/

/-- A step runs the step its stimulus decodes to, on the state without that stimulus. Log 1. -/
def Obligations.StepRunsDecodedInstruction : Prop :=
  ∀ (s : State) (x : Stimulus) (rest : List Stimulus) (i : Instr),
    s.inputs = x :: rest → decode x = .ok i → step s = exec i { s with inputs := rest }

/-- A reserved command word is refused (U8), and where nothing is presented only the response port changes.
Logs 2, 3, 8. -/
def Obligations.StepOtherwiseRefusesOrIdles : Prop :=
  ∀ s : State,
    (∀ w rest why, s.inputs = .cmd w :: rest → decode (.cmd w) = .error why →
      step s = .refused (.reservedCommand why)) ∧
    (s.inputs = [] → step s = .next { s with rsp := none })

/-- A command word presented by `withFetchWord` is the one the next step runs. Logs 1, 11. -/
def Obligations.PresentedWordRunsNext : Prop :=
  ∀ (s : State) (w : Word) (i : Instr), decode (.cmd w) = .ok i →
    step (s.withFetchWord 32 w.toNat) = exec i s

/-- The stimuli still to come do not influence a step and are not influenced by it. Log 1. -/
def Obligations.ExecIgnoresPendingInputs : Prop :=
  ∀ (i : Instr) (s : State) (q : List Stimulus),
    (∀ t, exec i s = .next t →
      t.inputs = s.inputs ∧ exec i { s with inputs := q } = .next { t with inputs := q }) ∧
    (∀ r, exec i s = .refused r → exec i { s with inputs := q } = .refused r)

/-- A run of the machine over queued encodings is the run of the steps they stand for (R60, R73). Log 1. -/
def Obligations.QueuedEncodingsRunInOrder : Prop :=
  ∀ (is : List Instr) (rest : List Stimulus) (s t : State),
    (∀ i ∈ is, i.wf = true) → s.inputs = is.map encode ++ rest →
      (Host.Core.run Sys2Proof.core is.length s = .next t ↔ run is { s with inputs := rest } = .next t)

/-- Simultaneous inputs (R76, spec decision D27). In a cycle with `rst` everything else is discarded. In every other
cycle the machine run over the cycle is the run of `TICK_EV`, `BIT_EV`, `CMP_EV`, `SAMPLE` and the host operation, each
if its input is set, in that order, refusals included; a reserved word is refused after the events. The case R76
names: a `SAMPLE` in the cycle of the `TICK_EV` that ends the request pulse runs in `WaitAck0`. Logs 1, 8, 13. -/
def Obligations.SimultaneousInputsAreSerialised : Prop :=
  ∀ (c : InPorts) (s : State), s.inputs = [] →
    (c.rst = true → step (present c s) = .next { State.reset with params := s.params }) ∧
    (c.rst = false → c.cmdValid = false →
      Host.Core.run Sys2Proof.core (cycleEvents c).length (present c s) = run (cycleEvents c) s) ∧
    (∀ i, c.rst = false → c.cmdValid = true → decode (.cmd c.cmd) = .ok i →
      Host.Core.run Sys2Proof.core ((cycleEvents c).length + 1) (present c s) = run (cycleEvents c ++ [i]) s) ∧
    (∀ why u, c.rst = false → c.cmdValid = true → decode (.cmd c.cmd) = .error why →
      run (cycleEvents c) s = .next u →
        Host.Core.run Sys2Proof.core ((cycleEvents c).length + 1) (present c s) =
          .refused (.reservedCommand why)) ∧
    (c.rst = false → c.irqTick = true → c.bitClk = false → c.irqCmp = false → c.sampling = true →
      c.lineIn = false → c.cmdValid = false → s.slState = .reqPulse → s.reqCnt + 1 = s.params.reqLow →
        ∃ t, Host.Core.run Sys2Proof.core 2 (present c s) = .next t ∧ t.slState = .waitAck1 ∧ t.inputs = [])

/-- The output pins (R41; the order of the channels is spec decision D12). -/
def Obligations.OutputPinsShowTheState : Prop :=
  ∀ s : State,
    (pwmOutPins s).getLsbD 0 = s.pwmOut.r ∧
    (pwmOutPins s).getLsbD 1 = s.pwmOut.g ∧
    (pwmOutPins s).getLsbD 2 = s.pwmOut.b ∧
    lineDriveLow s = s.lineDrv ∧
    (busyPin s = true ↔ s.slState ≠ .idle)

/-! ## TickClock and TimerBank (40_tickclock_timerbank.md) -/

/-- `TICK_EV` completes in every state (R110, R159; counting the request pulse in ticks is spec decision D13).
Everything not named keeps its value. -/
def Obligations.TickEvAdvancesTickAndRequestPulse : Prop :=
  ∀ s : State,
    (s.slState ≠ .reqPulse →
      exec .tickEv s = .next { s with tick := (s.tick + 1) % 2 ^ s.params.tickW, rsp := none }) ∧
    (s.slState = .reqPulse → s.reqCnt + 1 ≠ s.params.reqLow →
      exec .tickEv s = .next { s with
        tick := (s.tick + 1) % 2 ^ s.params.tickW, reqCnt := s.reqCnt + 1, rsp := none }) ∧
    (s.slState = .reqPulse → s.reqCnt + 1 = s.params.reqLow →
      exec .tickEv s = .next { s with
        tick := (s.tick + 1) % 2 ^ s.params.tickW, lineDrv := false, slState := .waitAck0,
        toCnt := 0, reqCnt := 0, rsp := none })

/-- `NOW` and `GETERR` (R111, R194; that they are host operations is spec decision D23). -/
def Obligations.NowAndGeterrRespondCounters : Prop :=
  ∀ s : State, s.slState = .idle →
    exec .now s = .next { s with rsp := some (BitVec.ofNat 32 s.tick) } ∧
    exec .geterr s = .next { s with rsp := some (BitVec.ofNat 32 s.err.toNat) }

/-- `TRESET id` (R112): a valid id, and an id that names no timer. -/
def Obligations.TresetTakesSnapshot : Prop :=
  ∀ (s : State) (id : Nat), s.slState = .idle →
    (∀ h : id < 4, exec (.treset id) s = .next { s with snap := s.snap.set id s.tick h, rsp := some 0 }) ∧
    (4 ≤ id → exec (.treset id) s = .next { s with rsp := some 0 })

/-- `TELAPSED id` (R113): a valid id, and an id that names no timer. -/
def Obligations.TelapsedRespondsDifference : Prop :=
  ∀ (s : State) (id : Nat), s.slState = .idle →
    (∀ h : id < 4, exec (.telapsed id) s =
      .next { s with rsp := some (BitVec.ofNat 32 (ticksSince s ⟨id, h⟩)) }) ∧
    (4 ≤ id → exec (.telapsed id) s = .next { s with rsp := some 0 })

/-- The timers are independent (R120): for `i != j`, `TRESET i` does not change the response of `TELAPSED j`. -/
def Obligations.TimersAreIndependent : Prop :=
  ∀ (s : State) (i j : Nat), i ≠ j → s.slState = .idle →
    ∃ t u v, exec (.treset i) s = .next t ∧ exec (.telapsed j) t = .next u ∧
      exec (.telapsed j) s = .next v ∧ u.rsp = v.rsp

/-- Monotonicity (R115): without a `RESET`, `TICK` counts exactly the `TICK_EV` steps, whatever else happens. -/
def Obligations.TickCountsTickEvents : Prop :=
  ∀ (is : List Instr) (s t : State),
    s.tick < 2 ^ s.params.tickW → .reset ∉ is → run is s = .next t →
      t.tick = (s.tick + tickCount is) % 2 ^ s.params.tickW

/-- Elapsed counts ticks (R116): from `TRESET id` to `TELAPSED id`, over any run that does not restart the timer. -/
def Obligations.ElapsedCountsTicks : Prop :=
  ∀ (id : Nat) (is : List Instr) (s u t : State),
    id < 4 → exec (.treset id) s = .next u → neverRestarts id is u = true →
    run (is ++ [.telapsed id]) u = .next t →
      t.rsp = some (BitVec.ofNat 32 (tickCount is % 2 ^ s.params.tickW))

/-! ## DutyTable and PWM (41_pwm.md) -/

/-- `SETDUTY` (R132; the clamp is spec decision D9). -/
def Obligations.SetdutyReplacesTriple : Prop :=
  ∀ (s : State) (r g b : Nat), s.slState = .idle →
    exec (.setduty r g b) s = .next { s with duty := ⟨min r 100, min g 100, min b 100⟩, rsp := some 0 }

/-- `CMP_EV` (R133 and R134; the order of the sub-steps is spec decision D8, that a disabled event is lost D11). -/
def Obligations.CmpEvRunsOneSubCycle : Prop :=
  ∀ s : State,
    (s.pwmEn = false → exec .cmpEv s = .next { s with rsp := none }) ∧
    (s.pwmEn = true → s.pwmCnt < 99 →
      exec .cmpEv s = .next { s with
        pwmCnt := s.pwmCnt + 1
        pwmOut := ⟨s.pwmOut.r && s.pwmCnt + 1 != s.duty.r, s.pwmOut.g && s.pwmCnt + 1 != s.duty.g,
                   s.pwmOut.b && s.pwmCnt + 1 != s.duty.b⟩
        rsp := none }) ∧
    (s.pwmEn = true → 99 ≤ s.pwmCnt →
      exec .cmpEv s = .next { s with
        pwmCnt := 0, pwmOut := ⟨s.duty.r != 0, s.duty.g != 0, s.duty.b != 0⟩, rsp := none })

/-- Steady state, kept (R135, R136): once every channel is asserted exactly while the count is below its duty, every
step but a `SETDUTY` leaves it so: other operations, suspensions and resumptions, even `RESET`. -/
def Obligations.WaveformKeptByAllButSetduty : Prop :=
  ∀ (i : Instr) (s t : State),
    StateInv s → Waveform s → (∀ r g b, i ≠ .setduty r g b) → exec i s = .next t → Waveform t

/-- Steady state, reached (R135): the compare event that closes a cycle starts the waveform from any output levels. -/
def Obligations.WrapStartsWaveform : Prop :=
  ∀ s t : State, s.pwmEn = true → s.pwmCnt = 99 → exec .cmpEv s = .next t →
    t.pwmCnt = 0 ∧ Waveform t

/-- Steady state, counted (R135): in a cycle a channel with duty `d` is asserted in exactly `d` of the 100
intervals, the first `d`. -/
def Obligations.ChannelAssertedForDutyIntervals : Prop :=
  ∀ (s : State) (c : Channel), s.pwmEn = true → s.pwmCnt = 99 → Rgb.get s.duty c ≤ 100 →
    assertedIntervals c s = Rgb.get s.duty c ∧
    ∀ k, k < 100 → ∃ t, run (List.replicate (k + 1) .cmpEv) s = .next t ∧ t.pwmCnt = k ∧
      Rgb.get t.pwmOut c = decide (k < Rgb.get s.duty c)

/-- Duty changed in mid-cycle (R137): until the wrap a channel that is on goes off exactly when the count reaches
the new duty, and a channel that is off stays off. -/
def Obligations.MidCycleDutyActsBeforeWrapOnlyByMatch : Prop :=
  ∀ (s : State) (r g b k : Nat) (c : Channel),
    s.slState = .idle → s.pwmEn = true → s.pwmCnt + k ≤ 99 →
      ∃ t, run (.setduty r g b :: List.replicate k .cmpEv) s = .next t ∧ t.pwmCnt = s.pwmCnt + k ∧
        Rgb.get t.pwmOut c =
          (Rgb.get s.pwmOut c &&
            !decide (s.pwmCnt < Rgb.get t.duty c ∧ Rgb.get t.duty c ≤ s.pwmCnt + k))

/-- First cycle after `RESET` (R138): whatever duties are written, nothing is asserted before the 100th compare
event. -/
def Obligations.NothingAssertedBeforeFirstWrap : Prop :=
  ∀ (is : List Instr) (s u t : State),
    exec .reset s = .next u → is.count .cmpEv ≤ 99 → run is u = .next t →
      t.pwmOut = ⟨false, false, false⟩

/-- Suspension (R139): from the opening of a transaction to its end, PWM state stands still, whatever events
arrive. -/
def Obligations.TransactionFreezesPwm : Prop :=
  ∀ (is : List Instr) (s t : State),
    StateInv s → s.slState ≠ .idle → (∀ i ∈ is, isTransactionEvent i = true) → run is s = .next t →
    t.slState ≠ .idle →
      t.pwmCnt = s.pwmCnt ∧ t.pwmOut = s.pwmOut ∧ t.duty = s.duty ∧ t.pwmEn = false

/-! ## SensorLink (42_sensorlink.md) -/

/-- `POLL`, not due (R155; `>=` is spec decision D6, code 1 is D16). -/
def Obligations.PollNotDueRespondsOne : Prop :=
  ∀ s : State, s.slState = .idle → ¬ SensorIsDue s → exec .poll s = .next { s with rsp := some 1 }

/-- `NotDue` writes nothing (R199): a `POLL` after which no transaction is in progress has changed nothing but the
response port. -/
def Obligations.NotDueWritesNothing : Prop :=
  ∀ s t : State, exec .poll s = .next t → t.slState = .idle → State.silent t = State.silent s

/-- `POLL`, due (R155; spec decisions D5, D6, D7, D31). There is no response yet (log 3 for the idle port). -/
def Obligations.PollDueOpensTransaction : Prop :=
  ∀ s : State, s.slState = .idle → SensorIsDue s →
    exec .poll s = .next { s with
      snap := s.snap.set s.params.sensorTimer.val s.tick
      pwmEn := false, lineDrv := true, slState := .reqPulse
      reqCnt := 0, bitIdx := 0, toCnt := 0, frame := 0, rsp := none }

/-- `BIT_EV` completes in every state (R160; the bit timer is spec decision D18). -/
def Obligations.BitEvCountsModulo256 : Prop :=
  ∀ s : State, exec .bitEv s = .next { s with
    bitCnt := BitVec.ofNat 8 ((s.bitCnt.toNat + 1) % 256), rsp := none }

/-- Which steps are enabled (R153, with R63): the host operations exactly in `Idle`, `SAMPLE` exactly in the five
wait stages, the other events always. Logs 9, 10 for the names of the refusals. -/
def Obligations.StepsEnabledByStage : Prop :=
  ∀ s : State,
    (∀ i : Instr, i.isHostOp = true →
      (s.slState = .idle → ∃ t, exec i s = .next t) ∧
      (s.slState ≠ .idle → exec i s = .refused .busy)) ∧
    (∀ lv : Level,
      (s.slState ≠ .idle ∧ s.slState ≠ .reqPulse → ∃ t, exec (.sample lv) s = .next t) ∧
      (s.slState = .idle ∨ s.slState = .reqPulse → exec (.sample lv) s = .refused .sampleNotEnabled)) ∧
    (∀ i ∈ [Instr.reset, .tickEv, .cmpEv, .bitEv], ∃ t, exec i s = .next t)

/-- A match in `WaitAck0` (R163; that there is such a stage is spec decision D15). -/
def Obligations.FirstAcknowledgmentMatch : Prop :=
  ∀ s : State, s.slState = .waitAck0 →
    exec (.sample false) s = .next { s with slState := .waitAck1, toCnt := 0, rsp := none }

/-- A match in `WaitAck1` and in `WaitAck2` (R164, R165). -/
def Obligations.LaterAcknowledgmentMatches : Prop :=
  ∀ s : State,
    (s.slState = .waitAck1 → ∃ t, exec (.sample true) s = .next t ∧
      State.silent t = State.silent { s with slState := .waitAck2, toCnt := 0 }) ∧
    (s.slState = .waitAck2 → ∃ t, exec (.sample false) s = .next t ∧
      State.silent t = State.silent { s with slState := .bitWaitHigh, bitIdx := 0, toCnt := 0 })

/-- The start of a bit slot (R166). -/
def Obligations.SlotStartClearsBitTimer : Prop :=
  ∀ s : State, s.slState = .bitWaitHigh →
    ∃ t, exec (.sample true) s = .next t ∧
      State.silent t = State.silent { s with bitCnt := 0, slState := .bitWaitLow, toCnt := 0 }

/-- The end of a bit slot other than the last (R167). -/
def Obligations.SlotEndStoresBit : Prop :=
  ∀ s : State, s.slState = .bitWaitLow → s.bitIdx < 39 →
    ∃ t, exec (.sample false) s = .next t ∧
      (∀ j, j < 40 → t.frame.getLsbD j =
        if j = 39 - s.bitIdx then decide (s.params.bitThreshold < s.bitCnt.toNat) else s.frame.getLsbD j) ∧
      State.silent { t with frame := s.frame } =
        State.silent { s with bitIdx := s.bitIdx + 1, slState := .bitWaitHigh, toCnt := 0 }

/-- The end of the last slot with a good checksum (R168 to R170, R195 to R197; that one step does it all is spec
decision D19, that `TEMP_VAL` is kept when the flag is set D20, code 0 D16). -/
def Obligations.LastBitWithGoodChecksumUpdatesCache : Prop :=
  ∀ (s : State) (f : Frame), s.slState = .bitWaitLow → s.bitIdx = 39 →
    (∀ j, j < 40 → f.getLsbD j =
      if j = 0 then decide (s.params.bitThreshold < s.bitCnt.toNat) else s.frame.getLsbD j) →
    checksumGood f = true →
      exec (.sample false) s = .next { s with
        frame := f
        humVal := BitVec.ofNat 16 ((humRaw f + 5) / 10), humValid := true
        tempVal := if tempFlag f then s.tempVal else BitVec.ofNat 16 ((tempRaw f + 5) / 10)
        tempValid := !tempFlag f
        err := 0, pwmEn := true, slState := .idle, rsp := some 0 }

/-- The end of the last slot with a bad checksum: `abort(7)` (R168, R169, R198, R214; spec decisions D16, D19, and D21 for the
saturation). -/
def Obligations.LastBitWithBadChecksumAborts : Prop :=
  ∀ (s : State) (f : Frame), s.slState = .bitWaitLow → s.bitIdx = 39 →
    (∀ j, j < 40 → f.getLsbD j =
      if j = 0 then decide (s.params.bitThreshold < s.bitCnt.toNat) else s.frame.getLsbD j) →
    checksumGood f = false →
      exec (.sample false) s = .next { s with
        frame := f
        err := BitVec.ofNat 8 (min (s.err.toNat + 1) 255)
        humValid := s.humValid && decide (min (s.err.toNat + 1) 255 ≤ s.params.maxErrors)
        tempValid := s.tempValid && decide (min (s.err.toNat + 1) 255 ≤ s.params.maxErrors)
        lineDrv := false, pwmEn := true, slState := .idle, rsp := some 7 }

/-- A miss below the cap (R162; the boundary is spec decision D17), in each of the five stages. -/
def Obligations.SampleMissCounts : Prop :=
  ∀ (s : State) (lv : Level),
    (s.slState, lv) ∈ [(SlState.waitAck0, true), (.waitAck1, false), (.waitAck2, true),
      (.bitWaitHigh, false), (.bitWaitLow, true)] →
    s.toCnt + 1 ≠ s.params.sensTimeout →
      exec (.sample lv) s = .next { s with toCnt := s.toCnt + 1, rsp := none }

/-- The miss at the cap takes the exception `abort(code)` (R162, R198, R212, R214; the boundary is spec decision D17,
the codes D16, the saturation D21), in each of the five stages. -/
def Obligations.SampleTimeoutAborts : Prop :=
  ∀ (s : State) (lv : Level) (code : Word),
    (s.slState, lv, code) ∈ [(SlState.waitAck0, true, 2#32), (.waitAck1, false, 3#32), (.waitAck2, true, 4#32),
      (.bitWaitHigh, false, 5#32), (.bitWaitLow, true, 6#32)] →
    s.toCnt + 1 = s.params.sensTimeout →
      exec (.sample lv) s = .next { s with
        err := BitVec.ofNat 8 (min (s.err.toNat + 1) 255)
        humValid := s.humValid && decide (min (s.err.toNat + 1) 255 ≤ s.params.maxErrors)
        tempValid := s.tempValid && decide (min (s.err.toNat + 1) 255 ≤ s.params.maxErrors)
        lineDrv := false, pwmEn := true, slState := .idle, rsp := some code }

/-- The PWM gate (R156): off from the opening `POLL` to the step that ends the transaction, which turns it on. -/
def Obligations.PwmGateFollowsTransaction : Prop :=
  ∀ (i : Instr) (s t : State), StateInv s → exec i s = .next t →
    (s.slState = .idle → t.slState ≠ .idle → i = .poll ∧ t.pwmEn = false) ∧
    (s.slState ≠ .idle → t.slState ≠ .idle → t.pwmEn = false) ∧
    (s.slState ≠ .idle → t.slState = .idle → t.pwmEn = true) ∧
    (i = .poll → t.slState = .idle → t.pwmEn = s.pwmEn)

/-- Only a `SAMPLE` or `RESET` ends a transaction, and the `SAMPLE` that ends it responds with one of the codes 0 and
2 to 7 (R175; no other step of a transaction responds; codes by spec decision D16). -/
def Obligations.OnlySampleOrResetEndsTransaction : Prop :=
  ∀ (i : Instr) (s t : State), StateInv s → s.slState ≠ .idle → exec i s = .next t →
    (t.slState = .idle →
      t.pwmEn = true ∧ t.lineDrv = false ∧
      (i = .reset ∧ t.rsp = none ∨
        (∃ lv, i = .sample lv) ∧ ∃ v : Word, t.rsp = some v ∧ v ∈ [0#32, 2, 3, 4, 5, 6, 7])) ∧
    (t.slState ≠ .idle → t.rsp = none)

/-- The length of the request pulse (R159, R177; counted in ticks by spec decision D13). -/
def Obligations.RequestPulseLastsReqLowTicks : Prop :=
  ∀ (is : List Instr) (s t : State),
    s.slState = .reqPulse → s.reqCnt = 0 → s.lineDrv = true → 1 ≤ s.params.reqLow →
    (∀ i ∈ is, i = .tickEv ∨ i = .cmpEv ∨ i = .bitEv) → run is s = .next t →
      (tickCount is < s.params.reqLow →
        t.slState = .reqPulse ∧ t.lineDrv = true ∧ t.reqCnt = tickCount is) ∧
      (s.params.reqLow ≤ tickCount is →
        t.slState = .waitAck0 ∧ t.lineDrv = false ∧ t.toCnt = 0)

/-- The bound of a transaction (R177): at most `83 * SENS_TIMEOUT` samples, after which it has ended, and at least 83
of them before a success. -/
def Obligations.TransactionIsBounded : Prop :=
  ∀ (is : List Instr) (s t : State),
    StateInv s → s.slState = .reqPulse → s.reqCnt = 0 → s.rsp = none →
    (∀ i ∈ is, isTransactionEvent i = true) → run is s = .next t →
      sampleCount is ≤ 83 * s.params.sensTimeout ∧
      (t.slState ≠ .idle → sampleCount is < 83 * s.params.sensTimeout) ∧
      (s.params.reqLow ≤ tickCount is → t.slState ≠ .reqPulse) ∧
      (t.rsp = some 0 → 83 ≤ sampleCount is)

/-- End to end with an acknowledging peer (R97, R98, R155 to R170): from any idle state with the sensor due, forty
slots of any lengths are received as the forty bits their counts stand for, the cache is updated or the error counted
by the checksum, the host is answered, and every other element of the state has the value the rules leave there. Rests
on spec decisions D5 to D7, D13, D15, D16, D19 to D21. -/
def Obligations.TransactionReceivesForty : Prop :=
  ∀ (s : State) (counts : List Nat),
    StateInv s → s.slState = .idle → SensorIsDue s → counts.length = 40 →
      ∃ t, run (transactionSteps s.params.reqLow counts) s = .next t ∧
        (∀ (i : Nat) (h : i < counts.length),
          t.frame.getLsbD (39 - i) = decide (s.params.bitThreshold < counts[i] % 256)) ∧
        t.slState = .idle ∧ t.pwmEn = true ∧ t.lineDrv = false ∧
        t.tick = (s.tick + s.params.reqLow) % 2 ^ s.params.tickW ∧
        t.snap = s.snap.set s.params.sensorTimer.val s.tick ∧
        t.duty = s.duty ∧ t.pwmCnt = s.pwmCnt ∧ t.pwmOut = s.pwmOut ∧
        t.bitIdx = 39 ∧ t.toCnt = 0 ∧ t.reqCnt = 0 ∧
        (∀ h : 39 < counts.length, t.bitCnt = BitVec.ofNat 8 counts[39]) ∧
        t.params = s.params ∧ t.inputs = s.inputs ∧
        (checksumGood t.frame = true →
          t.rsp = some 0 ∧ t.err = 0 ∧
          t.humValid = true ∧ t.humVal = BitVec.ofNat 16 (div10r (humRaw t.frame)) ∧
          t.tempValid = !tempFlag t.frame ∧
          (tempFlag t.frame = false → t.tempVal = BitVec.ofNat 16 (div10r (tempRaw t.frame))) ∧
          (tempFlag t.frame = true → t.tempVal = s.tempVal)) ∧
        (checksumGood t.frame = false →
          t.rsp = some 7 ∧ t.err = satInc s.err ∧ t.humVal = s.humVal ∧ t.tempVal = s.tempVal ∧
          ((satInc s.err).toNat ≤ s.params.maxErrors → t.humValid = s.humValid ∧ t.tempValid = s.tempValid) ∧
          (s.params.maxErrors < (satInc s.err).toNat → t.humValid = false ∧ t.tempValid = false))

/-- End to end without an acknowledgment (R155, R162, R198, R201, R214): the host is answered 2, the error is counted,
the readings keep their values and lose their flags exactly past the threshold. Rests on spec decisions D5 to D7, D13,
D15 to D17, D21. -/
def Obligations.UnansweredTransactionTimesOut : Prop :=
  ∀ s : State, StateInv s → s.slState = .idle → SensorIsDue s →
    ∃ t, run (unansweredSteps s.params.reqLow s.params.sensTimeout) s = .next t ∧
      t.rsp = some 2 ∧ t.slState = .idle ∧ t.pwmEn = true ∧ t.lineDrv = false ∧
      t.err = satInc s.err ∧ t.humVal = s.humVal ∧ t.tempVal = s.tempVal ∧
      ((satInc s.err).toNat ≤ s.params.maxErrors → t.humValid = s.humValid ∧ t.tempValid = s.tempValid) ∧
      (s.params.maxErrors < (satInc s.err).toNat → t.humValid = false ∧ t.tempValid = false) ∧
      t.duty = s.duty ∧ t.pwmCnt = s.pwmCnt ∧ t.pwmOut = s.pwmOut

/-! ## SensorResultCache (43_resultcache.md) -/

/-- `GETHUM` and `GETTEMP` (R192, R193): the value in the low 16 bits, the flag in bit 16, nothing written. -/
def Obligations.ReadingsRespondValueAndFlag : Prop :=
  ∀ s : State, s.slState = .idle →
    exec .gethum s = .next { s with
      rsp := some (BitVec.ofNat 32 (s.humVal.toNat + if s.humValid then 2 ^ 16 else 0)) } ∧
    exec .gettemp s = .next { s with
      rsp := some (BitVec.ofNat 32 (s.tempVal.toNat + if s.tempValid then 2 ^ 16 else 0)) }

/-! ## Reset (70_reset_and_hazards.md) -/

/-- `RESET` completes in every state and leaves the state after reset (R240, R242; every value but the snapshots' is
a spec decision: D3, D10, D22, D30). The configuration and the stimuli still to come stay (log 22). -/
def Obligations.ResetRewritesEverything : Prop :=
  ∀ s : State, exec .reset s = .next { State.reset with params := s.params, inputs := s.inputs }

/-- The state after reset (R46; spec decisions D3, D10, D22, the snapshots the source's own), said value by value. -/
def Obligations.ResetStateValues : Prop :=
  State.reset.tick = 0 ∧ (∀ i : Fin 4, State.reset.snap[i] = 0) ∧
  State.reset.duty = ⟨0, 0, 0⟩ ∧ State.reset.pwmCnt = 0 ∧ State.reset.pwmOut = ⟨false, false, false⟩ ∧
  State.reset.pwmEn = true ∧ State.reset.slState = .idle ∧ State.reset.bitIdx = 0 ∧ State.reset.toCnt = 0 ∧
  State.reset.reqCnt = 0 ∧ State.reset.bitCnt = 0 ∧ State.reset.frame = 0 ∧ State.reset.lineDrv = false ∧
  State.reset.humVal = 0 ∧ State.reset.humValid = false ∧ State.reset.tempVal = 0 ∧
  State.reset.tempValid = false ∧ State.reset.err = 0

/-! ## The whole machine -/

/-- The invariant of R43 and R203 holds after reset, for every value of the two OPEN parameters. -/
def Obligations.InvariantHoldsAtReset : Prop := StateInv State.reset

/-- Every step keeps the invariant of R43 and R203, from every state that meets it. -/
def Obligations.StepKeepsInvariant : Prop :=
  ∀ s t : State, StateInv s → step s = .next t → StateInv t

/-- The access matrix (R42): what each element is written by. A step not named leaves the element as it was. -/
def Obligations.AccessMatrix : Prop :=
  ∀ (i : Instr) (s t : State), i ≠ .reset → exec i s = .next t →
    t.params = s.params ∧
    (i ≠ .tickEv → t.tick = s.tick) ∧
    (∀ j : Fin 4, i ≠ .treset j.val → ¬ (i = .poll ∧ j = s.params.sensorTimer) → t.snap[j] = s.snap[j]) ∧
    ((∀ r g b, i ≠ .setduty r g b) → t.duty = s.duty) ∧
    (i ≠ .cmpEv → t.pwmCnt = s.pwmCnt ∧ t.pwmOut = s.pwmOut) ∧
    ((∀ lv, i ≠ .sample lv) → i ≠ .poll → t.pwmEn = s.pwmEn) ∧
    ((∀ lv, i ≠ .sample lv) → i ≠ .poll → i ≠ .tickEv →
      t.slState = s.slState ∧ t.toCnt = s.toCnt ∧ t.reqCnt = s.reqCnt ∧ t.lineDrv = s.lineDrv) ∧
    ((∀ lv, i ≠ .sample lv) → i ≠ .poll → t.bitIdx = s.bitIdx ∧ t.frame = s.frame) ∧
    ((∀ lv, i ≠ .sample lv) → i ≠ .bitEv → t.bitCnt = s.bitCnt) ∧
    ((∀ lv, i ≠ .sample lv) → t.humVal = s.humVal ∧ t.humValid = s.humValid ∧
      t.tempVal = s.tempVal ∧ t.tempValid = s.tempValid ∧ t.err = s.err)

/-- Which steps respond (R62, R91, R175): an accepted host operation responds at once, but for the `POLL` that opens
a transaction; of the events only a `SAMPLE` can respond. Log 3. -/
def Obligations.ResponsesComeFromAcceptedOperations : Prop :=
  ∀ (i : Instr) (s t : State), exec i s = .next t →
    (i.isHostOp = true → (t.rsp = none ↔ i = .poll ∧ SensorIsDue s)) ∧
    (i.isHostOp = false → t.rsp ≠ none → ∃ lv, i = .sample lv)

/-- The interrupts and the bit timer commute (R77). -/
def Obligations.EventsCommute : Prop :=
  ∀ (a b : Instr) (s : State),
    a ∈ [Instr.tickEv, .cmpEv, .bitEv] → b ∈ [Instr.tickEv, .cmpEv, .bitEv] →
      ∃ t, run [a, b] s = .next t ∧ run [b, a] s = .next t

/-- Events commute with host operations as R77 says: in either order the state is the same and so is the operation's
response. -/
def Obligations.EventsCommuteWithHostOperations : Prop :=
  ∀ (e i : Instr) (s : State),
    i.isHostOp = true → s.slState = .idle →
    (e = .bitEv ∨
     (e = .cmpEv ∧ (∀ r g b, i ≠ .setduty r g b) ∧ ¬ (i = .poll ∧ SensorIsDue s)) ∨
     (e = .tickEv ∧ ((∃ r g b, i = .setduty r g b) ∨ i = .gethum ∨ i = .gettemp ∨ i = .geterr))) →
      ∃ t u v, exec i s = .next t ∧ run [i, e] s = .next u ∧ run [e, i] s = .next v ∧
        State.silent u = State.silent v ∧ v.rsp = t.rsp

/-- Idempotent writes (R70): repeating a `TRESET` or a `SETDUTY` with nothing between leaves the same state. -/
def Obligations.RepeatedWritesAreIdempotent : Prop :=
  ∀ (i : Instr) (s t : State),
    ((∃ id, i = .treset id) ∨ ∃ r g b, i = .setduty r g b) →
    exec i s = .next t → exec i t = .next t

/-- The working registers are not observable (R33, R44, U14): two states that differ only in them answer every step
alike, with the same response, and again differ only in them. -/
def Obligations.WorkingRegistersAreUnobservable : Prop :=
  ∀ (i : Instr) (s u : State), observable s = observable u → sameOutcome (exec i s) (exec i u)
end

