-- ==== Sys2Proof/Laws/Decode.lean ====
section
/-! SUPPORT. The fields of a command word and the word made from fields, as numbers: what proofs about the decoder
and the encoder cite (30_encoding.md R81). -/

namespace Sys2Proof

/-- `{x, y}` as a number. -/
theorem append_toNat {n m : Nat} (x : BitVec n) (y : BitVec m) : (x ++ y).toNat = x.toNat * 2 ^ m + y.toNat := by
  rw [BitVec.toNat_append, ← Nat.shiftLeft_add_eq_or_of_lt y.isLt, Nat.shiftLeft_eq]

theorem cmdWord_toNat (op : BitVec 4) (a b c : Nat) :
    (cmdWord op a b c).toNat = op.toNat * 2 ^ 28 + a % 256 * 2 ^ 16 + b % 256 * 2 ^ 8 + c % 256 := by
  unfold cmdWord
  rw [append_toNat, append_toNat, append_toNat, append_toNat]
  simp only [BitVec.toNat_ofNat]
  norm_num; omega

theorem fieldOp_toNat (w : Word) : (fieldOp w).toNat = w.toNat / 2 ^ 28 := by
  have := w.isLt
  simp [fieldOp, Nat.shiftRight_eq_div_pow]
  omega

theorem fieldZ_toNat (w : Word) : (fieldZ w).toNat = w.toNat / 2 ^ 24 % 16 := by
  simp [fieldZ, Nat.shiftRight_eq_div_pow]

theorem fieldA_toNat (w : Word) : (fieldA w).toNat = w.toNat / 2 ^ 16 % 256 := by
  simp [fieldA, Nat.shiftRight_eq_div_pow]

theorem fieldB_toNat (w : Word) : (fieldB w).toNat = w.toNat / 2 ^ 8 % 256 := by
  simp [fieldB, Nat.shiftRight_eq_div_pow]

theorem fieldC_toNat (w : Word) : (fieldC w).toNat = w.toNat % 256 := by
  simp [fieldC]

@[simp] theorem fieldOp_cmdWord (op : BitVec 4) (a b c : Nat) : fieldOp (cmdWord op a b c) = op := by
  have hw := cmdWord_toNat op a b c
  apply BitVec.eq_of_toNat_eq
  rw [fieldOp_toNat]; omega

@[simp] theorem fieldZ_cmdWord (op : BitVec 4) (a b c : Nat) : fieldZ (cmdWord op a b c) = 0 := by
  have hw := cmdWord_toNat op a b c
  apply BitVec.eq_of_toNat_eq
  rw [fieldZ_toNat, show (0 : BitVec 4).toNat = 0 from rfl]; omega

@[simp] theorem fieldA_cmdWord (op : BitVec 4) (a b c : Nat) :
    fieldA (cmdWord op a b c) = BitVec.ofNat 8 a := by
  have hw := cmdWord_toNat op a b c
  apply BitVec.eq_of_toNat_eq
  rw [fieldA_toNat, BitVec.toNat_ofNat]; omega

@[simp] theorem fieldB_cmdWord (op : BitVec 4) (a b c : Nat) :
    fieldB (cmdWord op a b c) = BitVec.ofNat 8 b := by
  have hw := cmdWord_toNat op a b c
  apply BitVec.eq_of_toNat_eq
  rw [fieldB_toNat, BitVec.toNat_ofNat]; omega

@[simp] theorem fieldC_cmdWord (op : BitVec 4) (a b c : Nat) :
    fieldC (cmdWord op a b c) = BitVec.ofNat 8 c := by
  have hw := cmdWord_toNat op a b c
  apply BitVec.eq_of_toNat_eq
  rw [fieldC_toNat, BitVec.toNat_ofNat]; omega

/-- A word with `Z = 0` is the word made from its fields. -/
theorem cmdWord_of_fields (w : Word) (hz : fieldZ w = 0) :
    cmdWord (fieldOp w) (fieldA w).toNat (fieldB w).toNat (fieldC w).toNat = w := by
  have hz' := fieldZ_toNat w
  rw [hz, show (0 : BitVec 4).toNat = 0 from rfl] at hz'
  have hw := w.isLt
  apply BitVec.eq_of_toNat_eq
  rw [cmdWord_toNat, fieldOp_toNat, fieldA_toNat, fieldB_toNat, fieldC_toNat]
  omega

end Sys2Proof
end

