-- ==== Sys2Proof/Laws/State.lean ====
section
/-! SUPPORT. One lemma per field per update: what each named operation of Machine/ does to each field of State. -/

namespace Sys2Proof.Machine

/-! ## The response port -/

@[simp] theorem noResponse_params (s : State) : (noResponse s).params = s.params := rfl
@[simp] theorem noResponse_tick (s : State) : (noResponse s).tick = s.tick := rfl
@[simp] theorem noResponse_snap (s : State) : (noResponse s).snap = s.snap := rfl
@[simp] theorem noResponse_duty (s : State) : (noResponse s).duty = s.duty := rfl
@[simp] theorem noResponse_pwmCnt (s : State) : (noResponse s).pwmCnt = s.pwmCnt := rfl
@[simp] theorem noResponse_pwmOut (s : State) : (noResponse s).pwmOut = s.pwmOut := rfl
@[simp] theorem noResponse_pwmEn (s : State) : (noResponse s).pwmEn = s.pwmEn := rfl
@[simp] theorem noResponse_slState (s : State) : (noResponse s).slState = s.slState := rfl
@[simp] theorem noResponse_bitIdx (s : State) : (noResponse s).bitIdx = s.bitIdx := rfl
@[simp] theorem noResponse_toCnt (s : State) : (noResponse s).toCnt = s.toCnt := rfl
@[simp] theorem noResponse_reqCnt (s : State) : (noResponse s).reqCnt = s.reqCnt := rfl
@[simp] theorem noResponse_bitCnt (s : State) : (noResponse s).bitCnt = s.bitCnt := rfl
@[simp] theorem noResponse_frame (s : State) : (noResponse s).frame = s.frame := rfl
@[simp] theorem noResponse_lineDrv (s : State) : (noResponse s).lineDrv = s.lineDrv := rfl
@[simp] theorem noResponse_humVal (s : State) : (noResponse s).humVal = s.humVal := rfl
@[simp] theorem noResponse_humValid (s : State) : (noResponse s).humValid = s.humValid := rfl
@[simp] theorem noResponse_tempVal (s : State) : (noResponse s).tempVal = s.tempVal := rfl
@[simp] theorem noResponse_tempValid (s : State) : (noResponse s).tempValid = s.tempValid := rfl
@[simp] theorem noResponse_err (s : State) : (noResponse s).err = s.err := rfl
@[simp] theorem noResponse_rsp (s : State) : (noResponse s).rsp = none := rfl
@[simp] theorem noResponse_inputs (s : State) : (noResponse s).inputs = s.inputs := rfl

@[simp] theorem respond_params (v : Word) (s : State) : (respond v s).params = s.params := rfl
@[simp] theorem respond_tick (v : Word) (s : State) : (respond v s).tick = s.tick := rfl
@[simp] theorem respond_snap (v : Word) (s : State) : (respond v s).snap = s.snap := rfl
@[simp] theorem respond_duty (v : Word) (s : State) : (respond v s).duty = s.duty := rfl
@[simp] theorem respond_pwmCnt (v : Word) (s : State) : (respond v s).pwmCnt = s.pwmCnt := rfl
@[simp] theorem respond_pwmOut (v : Word) (s : State) : (respond v s).pwmOut = s.pwmOut := rfl
@[simp] theorem respond_pwmEn (v : Word) (s : State) : (respond v s).pwmEn = s.pwmEn := rfl
@[simp] theorem respond_slState (v : Word) (s : State) : (respond v s).slState = s.slState := rfl
@[simp] theorem respond_bitIdx (v : Word) (s : State) : (respond v s).bitIdx = s.bitIdx := rfl
@[simp] theorem respond_toCnt (v : Word) (s : State) : (respond v s).toCnt = s.toCnt := rfl
@[simp] theorem respond_reqCnt (v : Word) (s : State) : (respond v s).reqCnt = s.reqCnt := rfl
@[simp] theorem respond_bitCnt (v : Word) (s : State) : (respond v s).bitCnt = s.bitCnt := rfl
@[simp] theorem respond_frame (v : Word) (s : State) : (respond v s).frame = s.frame := rfl
@[simp] theorem respond_lineDrv (v : Word) (s : State) : (respond v s).lineDrv = s.lineDrv := rfl
@[simp] theorem respond_humVal (v : Word) (s : State) : (respond v s).humVal = s.humVal := rfl
@[simp] theorem respond_humValid (v : Word) (s : State) : (respond v s).humValid = s.humValid := rfl
@[simp] theorem respond_tempVal (v : Word) (s : State) : (respond v s).tempVal = s.tempVal := rfl
@[simp] theorem respond_tempValid (v : Word) (s : State) : (respond v s).tempValid = s.tempValid := rfl
@[simp] theorem respond_err (v : Word) (s : State) : (respond v s).err = s.err := rfl
@[simp] theorem respond_rsp (v : Word) (s : State) : (respond v s).rsp = some v := rfl
@[simp] theorem respond_inputs (v : Word) (s : State) : (respond v s).inputs = s.inputs := rfl

/-! ## Entry to a stage -/

@[simp] theorem enterStage_params (st : SlState) (s : State) : (enterStage st s).params = s.params := rfl
@[simp] theorem enterStage_tick (st : SlState) (s : State) : (enterStage st s).tick = s.tick := rfl
@[simp] theorem enterStage_snap (st : SlState) (s : State) : (enterStage st s).snap = s.snap := rfl
@[simp] theorem enterStage_duty (st : SlState) (s : State) : (enterStage st s).duty = s.duty := rfl
@[simp] theorem enterStage_pwmCnt (st : SlState) (s : State) : (enterStage st s).pwmCnt = s.pwmCnt := rfl
@[simp] theorem enterStage_pwmOut (st : SlState) (s : State) : (enterStage st s).pwmOut = s.pwmOut := rfl
@[simp] theorem enterStage_pwmEn (st : SlState) (s : State) : (enterStage st s).pwmEn = s.pwmEn := rfl
@[simp] theorem enterStage_slState (st : SlState) (s : State) : (enterStage st s).slState = st := rfl
@[simp] theorem enterStage_bitIdx (st : SlState) (s : State) : (enterStage st s).bitIdx = s.bitIdx := rfl
@[simp] theorem enterStage_toCnt (st : SlState) (s : State) : (enterStage st s).toCnt = 0 := rfl
@[simp] theorem enterStage_reqCnt (st : SlState) (s : State) : (enterStage st s).reqCnt = s.reqCnt := rfl
@[simp] theorem enterStage_bitCnt (st : SlState) (s : State) : (enterStage st s).bitCnt = s.bitCnt := rfl
@[simp] theorem enterStage_frame (st : SlState) (s : State) : (enterStage st s).frame = s.frame := rfl
@[simp] theorem enterStage_lineDrv (st : SlState) (s : State) : (enterStage st s).lineDrv = s.lineDrv := rfl
@[simp] theorem enterStage_humVal (st : SlState) (s : State) : (enterStage st s).humVal = s.humVal := rfl
@[simp] theorem enterStage_humValid (st : SlState) (s : State) : (enterStage st s).humValid = s.humValid := rfl
@[simp] theorem enterStage_tempVal (st : SlState) (s : State) : (enterStage st s).tempVal = s.tempVal := rfl
@[simp] theorem enterStage_tempValid (st : SlState) (s : State) : (enterStage st s).tempValid = s.tempValid := rfl
@[simp] theorem enterStage_err (st : SlState) (s : State) : (enterStage st s).err = s.err := rfl
@[simp] theorem enterStage_rsp (st : SlState) (s : State) : (enterStage st s).rsp = s.rsp := rfl
@[simp] theorem enterStage_inputs (st : SlState) (s : State) : (enterStage st s).inputs = s.inputs := rfl

/-! ## The register file `SNAP` -/

@[simp] theorem writeSnap_params (s : State) (id v : Nat) :
    (writeSnap s id v).params = s.params := by unfold writeSnap; split <;> rfl
@[simp] theorem writeSnap_tick (s : State) (id v : Nat) :
    (writeSnap s id v).tick = s.tick := by unfold writeSnap; split <;> rfl
@[simp] theorem writeSnap_duty (s : State) (id v : Nat) :
    (writeSnap s id v).duty = s.duty := by unfold writeSnap; split <;> rfl
@[simp] theorem writeSnap_pwmCnt (s : State) (id v : Nat) :
    (writeSnap s id v).pwmCnt = s.pwmCnt := by unfold writeSnap; split <;> rfl
@[simp] theorem writeSnap_pwmOut (s : State) (id v : Nat) :
    (writeSnap s id v).pwmOut = s.pwmOut := by unfold writeSnap; split <;> rfl
@[simp] theorem writeSnap_pwmEn (s : State) (id v : Nat) :
    (writeSnap s id v).pwmEn = s.pwmEn := by unfold writeSnap; split <;> rfl
@[simp] theorem writeSnap_slState (s : State) (id v : Nat) :
    (writeSnap s id v).slState = s.slState := by unfold writeSnap; split <;> rfl
@[simp] theorem writeSnap_bitIdx (s : State) (id v : Nat) :
    (writeSnap s id v).bitIdx = s.bitIdx := by unfold writeSnap; split <;> rfl
@[simp] theorem writeSnap_toCnt (s : State) (id v : Nat) :
    (writeSnap s id v).toCnt = s.toCnt := by unfold writeSnap; split <;> rfl
@[simp] theorem writeSnap_reqCnt (s : State) (id v : Nat) :
    (writeSnap s id v).reqCnt = s.reqCnt := by unfold writeSnap; split <;> rfl
@[simp] theorem writeSnap_bitCnt (s : State) (id v : Nat) :
    (writeSnap s id v).bitCnt = s.bitCnt := by unfold writeSnap; split <;> rfl
@[simp] theorem writeSnap_frame (s : State) (id v : Nat) :
    (writeSnap s id v).frame = s.frame := by unfold writeSnap; split <;> rfl
@[simp] theorem writeSnap_lineDrv (s : State) (id v : Nat) :
    (writeSnap s id v).lineDrv = s.lineDrv := by unfold writeSnap; split <;> rfl
@[simp] theorem writeSnap_humVal (s : State) (id v : Nat) :
    (writeSnap s id v).humVal = s.humVal := by unfold writeSnap; split <;> rfl
@[simp] theorem writeSnap_humValid (s : State) (id v : Nat) :
    (writeSnap s id v).humValid = s.humValid := by unfold writeSnap; split <;> rfl
@[simp] theorem writeSnap_tempVal (s : State) (id v : Nat) :
    (writeSnap s id v).tempVal = s.tempVal := by unfold writeSnap; split <;> rfl
@[simp] theorem writeSnap_tempValid (s : State) (id v : Nat) :
    (writeSnap s id v).tempValid = s.tempValid := by unfold writeSnap; split <;> rfl
@[simp] theorem writeSnap_err (s : State) (id v : Nat) :
    (writeSnap s id v).err = s.err := by unfold writeSnap; split <;> rfl
@[simp] theorem writeSnap_rsp (s : State) (id v : Nat) :
    (writeSnap s id v).rsp = s.rsp := by unfold writeSnap; split <;> rfl
@[simp] theorem writeSnap_inputs (s : State) (id v : Nat) :
    (writeSnap s id v).inputs = s.inputs := by unfold writeSnap; split <;> rfl

/-! ## The cache sequences -/

@[simp] theorem errorSequence_params (s : State) : (errorSequence s).params = s.params := rfl
@[simp] theorem errorSequence_tick (s : State) : (errorSequence s).tick = s.tick := rfl
@[simp] theorem errorSequence_snap (s : State) : (errorSequence s).snap = s.snap := rfl
@[simp] theorem errorSequence_duty (s : State) : (errorSequence s).duty = s.duty := rfl
@[simp] theorem errorSequence_pwmCnt (s : State) : (errorSequence s).pwmCnt = s.pwmCnt := rfl
@[simp] theorem errorSequence_pwmOut (s : State) : (errorSequence s).pwmOut = s.pwmOut := rfl
@[simp] theorem errorSequence_pwmEn (s : State) : (errorSequence s).pwmEn = s.pwmEn := rfl
@[simp] theorem errorSequence_slState (s : State) : (errorSequence s).slState = s.slState := rfl
@[simp] theorem errorSequence_bitIdx (s : State) : (errorSequence s).bitIdx = s.bitIdx := rfl
@[simp] theorem errorSequence_toCnt (s : State) : (errorSequence s).toCnt = s.toCnt := rfl
@[simp] theorem errorSequence_reqCnt (s : State) : (errorSequence s).reqCnt = s.reqCnt := rfl
@[simp] theorem errorSequence_bitCnt (s : State) : (errorSequence s).bitCnt = s.bitCnt := rfl
@[simp] theorem errorSequence_frame (s : State) : (errorSequence s).frame = s.frame := rfl
@[simp] theorem errorSequence_lineDrv (s : State) : (errorSequence s).lineDrv = s.lineDrv := rfl
@[simp] theorem errorSequence_humVal (s : State) : (errorSequence s).humVal = s.humVal := rfl
@[simp] theorem errorSequence_humValid (s : State) :
    (errorSequence s).humValid = validAfterError s.params (satInc s.err) s.humValid := rfl
@[simp] theorem errorSequence_tempVal (s : State) : (errorSequence s).tempVal = s.tempVal := rfl
@[simp] theorem errorSequence_tempValid (s : State) :
    (errorSequence s).tempValid = validAfterError s.params (satInc s.err) s.tempValid := rfl
@[simp] theorem errorSequence_err (s : State) : (errorSequence s).err = satInc s.err := rfl
@[simp] theorem errorSequence_rsp (s : State) : (errorSequence s).rsp = s.rsp := rfl
@[simp] theorem errorSequence_inputs (s : State) : (errorSequence s).inputs = s.inputs := rfl

@[simp] theorem successSequence_params (hum : Nat) (tflag : Bool) (temp : Nat) (s : State) :
    (successSequence hum tflag temp s).params = s.params := rfl
@[simp] theorem successSequence_tick (hum : Nat) (tflag : Bool) (temp : Nat) (s : State) :
    (successSequence hum tflag temp s).tick = s.tick := rfl
@[simp] theorem successSequence_snap (hum : Nat) (tflag : Bool) (temp : Nat) (s : State) :
    (successSequence hum tflag temp s).snap = s.snap := rfl
@[simp] theorem successSequence_duty (hum : Nat) (tflag : Bool) (temp : Nat) (s : State) :
    (successSequence hum tflag temp s).duty = s.duty := rfl
@[simp] theorem successSequence_pwmCnt (hum : Nat) (tflag : Bool) (temp : Nat) (s : State) :
    (successSequence hum tflag temp s).pwmCnt = s.pwmCnt := rfl
@[simp] theorem successSequence_pwmOut (hum : Nat) (tflag : Bool) (temp : Nat) (s : State) :
    (successSequence hum tflag temp s).pwmOut = s.pwmOut := rfl
@[simp] theorem successSequence_pwmEn (hum : Nat) (tflag : Bool) (temp : Nat) (s : State) :
    (successSequence hum tflag temp s).pwmEn = s.pwmEn := rfl
@[simp] theorem successSequence_slState (hum : Nat) (tflag : Bool) (temp : Nat) (s : State) :
    (successSequence hum tflag temp s).slState = s.slState := rfl
@[simp] theorem successSequence_bitIdx (hum : Nat) (tflag : Bool) (temp : Nat) (s : State) :
    (successSequence hum tflag temp s).bitIdx = s.bitIdx := rfl
@[simp] theorem successSequence_toCnt (hum : Nat) (tflag : Bool) (temp : Nat) (s : State) :
    (successSequence hum tflag temp s).toCnt = s.toCnt := rfl
@[simp] theorem successSequence_reqCnt (hum : Nat) (tflag : Bool) (temp : Nat) (s : State) :
    (successSequence hum tflag temp s).reqCnt = s.reqCnt := rfl
@[simp] theorem successSequence_bitCnt (hum : Nat) (tflag : Bool) (temp : Nat) (s : State) :
    (successSequence hum tflag temp s).bitCnt = s.bitCnt := rfl
@[simp] theorem successSequence_frame (hum : Nat) (tflag : Bool) (temp : Nat) (s : State) :
    (successSequence hum tflag temp s).frame = s.frame := rfl
@[simp] theorem successSequence_lineDrv (hum : Nat) (tflag : Bool) (temp : Nat) (s : State) :
    (successSequence hum tflag temp s).lineDrv = s.lineDrv := rfl
@[simp] theorem successSequence_humVal (hum : Nat) (tflag : Bool) (temp : Nat) (s : State) :
    (successSequence hum tflag temp s).humVal = BitVec.ofNat 16 (div10r hum) := rfl
@[simp] theorem successSequence_humValid (hum : Nat) (tflag : Bool) (temp : Nat) (s : State) :
    (successSequence hum tflag temp s).humValid = true := rfl
@[simp] theorem successSequence_tempVal (hum : Nat) (tflag : Bool) (temp : Nat) (s : State) :
    (successSequence hum tflag temp s).tempVal = if tflag then s.tempVal else BitVec.ofNat 16 (div10r temp) := rfl
@[simp] theorem successSequence_tempValid (hum : Nat) (tflag : Bool) (temp : Nat) (s : State) :
    (successSequence hum tflag temp s).tempValid = !tflag := rfl
@[simp] theorem successSequence_err (hum : Nat) (tflag : Bool) (temp : Nat) (s : State) :
    (successSequence hum tflag temp s).err = 0 := rfl
@[simp] theorem successSequence_rsp (hum : Nat) (tflag : Bool) (temp : Nat) (s : State) :
    (successSequence hum tflag temp s).rsp = s.rsp := rfl
@[simp] theorem successSequence_inputs (hum : Nat) (tflag : Bool) (temp : Nat) (s : State) :
    (successSequence hum tflag temp s).inputs = s.inputs := rfl

/-! ## The ways into and out of a transaction -/

@[simp] theorem abort_params (c : ResultCode) (s : State) : (abort c s).params = s.params := rfl
@[simp] theorem abort_tick (c : ResultCode) (s : State) : (abort c s).tick = s.tick := rfl
@[simp] theorem abort_snap (c : ResultCode) (s : State) : (abort c s).snap = s.snap := rfl
@[simp] theorem abort_duty (c : ResultCode) (s : State) : (abort c s).duty = s.duty := rfl
@[simp] theorem abort_pwmCnt (c : ResultCode) (s : State) : (abort c s).pwmCnt = s.pwmCnt := rfl
@[simp] theorem abort_pwmOut (c : ResultCode) (s : State) : (abort c s).pwmOut = s.pwmOut := rfl
@[simp] theorem abort_pwmEn (c : ResultCode) (s : State) : (abort c s).pwmEn = true := rfl
@[simp] theorem abort_slState (c : ResultCode) (s : State) : (abort c s).slState = .idle := rfl
@[simp] theorem abort_bitIdx (c : ResultCode) (s : State) : (abort c s).bitIdx = s.bitIdx := rfl
@[simp] theorem abort_toCnt (c : ResultCode) (s : State) : (abort c s).toCnt = s.toCnt := rfl
@[simp] theorem abort_reqCnt (c : ResultCode) (s : State) : (abort c s).reqCnt = s.reqCnt := rfl
@[simp] theorem abort_bitCnt (c : ResultCode) (s : State) : (abort c s).bitCnt = s.bitCnt := rfl
@[simp] theorem abort_frame (c : ResultCode) (s : State) : (abort c s).frame = s.frame := rfl
@[simp] theorem abort_lineDrv (c : ResultCode) (s : State) : (abort c s).lineDrv = false := rfl
@[simp] theorem abort_humVal (c : ResultCode) (s : State) : (abort c s).humVal = s.humVal := rfl
@[simp] theorem abort_humValid (c : ResultCode) (s : State) :
    (abort c s).humValid = validAfterError s.params (satInc s.err) s.humValid := rfl
@[simp] theorem abort_tempVal (c : ResultCode) (s : State) : (abort c s).tempVal = s.tempVal := rfl
@[simp] theorem abort_tempValid (c : ResultCode) (s : State) :
    (abort c s).tempValid = validAfterError s.params (satInc s.err) s.tempValid := rfl
@[simp] theorem abort_err (c : ResultCode) (s : State) : (abort c s).err = satInc s.err := rfl
@[simp] theorem abort_rsp (c : ResultCode) (s : State) : (abort c s).rsp = some (ResultCode.word c) := rfl
@[simp] theorem abort_inputs (c : ResultCode) (s : State) : (abort c s).inputs = s.inputs := rfl

@[simp] theorem endSuccess_params (s : State) : (endSuccess s).params = s.params := rfl
@[simp] theorem endSuccess_tick (s : State) : (endSuccess s).tick = s.tick := rfl
@[simp] theorem endSuccess_snap (s : State) : (endSuccess s).snap = s.snap := rfl
@[simp] theorem endSuccess_duty (s : State) : (endSuccess s).duty = s.duty := rfl
@[simp] theorem endSuccess_pwmCnt (s : State) : (endSuccess s).pwmCnt = s.pwmCnt := rfl
@[simp] theorem endSuccess_pwmOut (s : State) : (endSuccess s).pwmOut = s.pwmOut := rfl
@[simp] theorem endSuccess_pwmEn (s : State) : (endSuccess s).pwmEn = true := rfl
@[simp] theorem endSuccess_slState (s : State) : (endSuccess s).slState = .idle := rfl
@[simp] theorem endSuccess_bitIdx (s : State) : (endSuccess s).bitIdx = s.bitIdx := rfl
@[simp] theorem endSuccess_toCnt (s : State) : (endSuccess s).toCnt = s.toCnt := rfl
@[simp] theorem endSuccess_reqCnt (s : State) : (endSuccess s).reqCnt = s.reqCnt := rfl
@[simp] theorem endSuccess_bitCnt (s : State) : (endSuccess s).bitCnt = s.bitCnt := rfl
@[simp] theorem endSuccess_frame (s : State) : (endSuccess s).frame = s.frame := rfl
@[simp] theorem endSuccess_lineDrv (s : State) : (endSuccess s).lineDrv = s.lineDrv := rfl
@[simp] theorem endSuccess_humVal (s : State) : (endSuccess s).humVal = s.humVal := rfl
@[simp] theorem endSuccess_humValid (s : State) : (endSuccess s).humValid = s.humValid := rfl
@[simp] theorem endSuccess_tempVal (s : State) : (endSuccess s).tempVal = s.tempVal := rfl
@[simp] theorem endSuccess_tempValid (s : State) : (endSuccess s).tempValid = s.tempValid := rfl
@[simp] theorem endSuccess_err (s : State) : (endSuccess s).err = s.err := rfl
@[simp] theorem endSuccess_rsp (s : State) : (endSuccess s).rsp = some (ResultCode.word .success) := rfl
@[simp] theorem endSuccess_inputs (s : State) : (endSuccess s).inputs = s.inputs := rfl

@[simp] theorem openTransaction_params (s : State) :
    (openTransaction s).params = s.params := by simp [openTransaction]
@[simp] theorem openTransaction_tick (s : State) : (openTransaction s).tick = s.tick := by simp [openTransaction]
@[simp] theorem openTransaction_snap (s : State) :
    (openTransaction s).snap = (writeSnap s s.params.sensorTimer.val s.tick).snap := rfl
@[simp] theorem openTransaction_duty (s : State) : (openTransaction s).duty = s.duty := by simp [openTransaction]
@[simp] theorem openTransaction_pwmCnt (s : State) :
    (openTransaction s).pwmCnt = s.pwmCnt := by simp [openTransaction]
@[simp] theorem openTransaction_pwmOut (s : State) :
    (openTransaction s).pwmOut = s.pwmOut := by simp [openTransaction]
@[simp] theorem openTransaction_pwmEn (s : State) : (openTransaction s).pwmEn = false := rfl
@[simp] theorem openTransaction_slState (s : State) : (openTransaction s).slState = .reqPulse := rfl
@[simp] theorem openTransaction_bitIdx (s : State) : (openTransaction s).bitIdx = 0 := rfl
@[simp] theorem openTransaction_toCnt (s : State) : (openTransaction s).toCnt = 0 := rfl
@[simp] theorem openTransaction_reqCnt (s : State) : (openTransaction s).reqCnt = 0 := rfl
@[simp] theorem openTransaction_bitCnt (s : State) :
    (openTransaction s).bitCnt = s.bitCnt := by simp [openTransaction]
@[simp] theorem openTransaction_frame (s : State) : (openTransaction s).frame = 0 := rfl
@[simp] theorem openTransaction_lineDrv (s : State) : (openTransaction s).lineDrv = true := rfl
@[simp] theorem openTransaction_humVal (s : State) :
    (openTransaction s).humVal = s.humVal := by simp [openTransaction]
@[simp] theorem openTransaction_humValid (s : State) :
    (openTransaction s).humValid = s.humValid := by simp [openTransaction]
@[simp] theorem openTransaction_tempVal (s : State) :
    (openTransaction s).tempVal = s.tempVal := by simp [openTransaction]
@[simp] theorem openTransaction_tempValid (s : State) :
    (openTransaction s).tempValid = s.tempValid := by simp [openTransaction]
@[simp] theorem openTransaction_err (s : State) : (openTransaction s).err = s.err := by simp [openTransaction]
@[simp] theorem openTransaction_rsp (s : State) : (openTransaction s).rsp = s.rsp := by simp [openTransaction]
@[simp] theorem openTransaction_inputs (s : State) :
    (openTransaction s).inputs = s.inputs := by simp [openTransaction]

/-! ## One PWM sub-cycle -/

@[simp] theorem pwmSubCycle_params (s : State) : (pwmSubCycle s).params = s.params := rfl
@[simp] theorem pwmSubCycle_tick (s : State) : (pwmSubCycle s).tick = s.tick := rfl
@[simp] theorem pwmSubCycle_snap (s : State) : (pwmSubCycle s).snap = s.snap := rfl
@[simp] theorem pwmSubCycle_duty (s : State) : (pwmSubCycle s).duty = s.duty := rfl
@[simp] theorem pwmSubCycle_pwmEn (s : State) : (pwmSubCycle s).pwmEn = s.pwmEn := rfl
@[simp] theorem pwmSubCycle_slState (s : State) : (pwmSubCycle s).slState = s.slState := rfl
@[simp] theorem pwmSubCycle_bitIdx (s : State) : (pwmSubCycle s).bitIdx = s.bitIdx := rfl
@[simp] theorem pwmSubCycle_toCnt (s : State) : (pwmSubCycle s).toCnt = s.toCnt := rfl
@[simp] theorem pwmSubCycle_reqCnt (s : State) : (pwmSubCycle s).reqCnt = s.reqCnt := rfl
@[simp] theorem pwmSubCycle_bitCnt (s : State) : (pwmSubCycle s).bitCnt = s.bitCnt := rfl
@[simp] theorem pwmSubCycle_frame (s : State) : (pwmSubCycle s).frame = s.frame := rfl
@[simp] theorem pwmSubCycle_lineDrv (s : State) : (pwmSubCycle s).lineDrv = s.lineDrv := rfl
@[simp] theorem pwmSubCycle_humVal (s : State) : (pwmSubCycle s).humVal = s.humVal := rfl
@[simp] theorem pwmSubCycle_humValid (s : State) : (pwmSubCycle s).humValid = s.humValid := rfl
@[simp] theorem pwmSubCycle_tempVal (s : State) : (pwmSubCycle s).tempVal = s.tempVal := rfl
@[simp] theorem pwmSubCycle_tempValid (s : State) : (pwmSubCycle s).tempValid = s.tempValid := rfl
@[simp] theorem pwmSubCycle_err (s : State) : (pwmSubCycle s).err = s.err := rfl
@[simp] theorem pwmSubCycle_rsp (s : State) : (pwmSubCycle s).rsp = s.rsp := rfl
@[simp] theorem pwmSubCycle_inputs (s : State) : (pwmSubCycle s).inputs = s.inputs := rfl

end Sys2Proof.Machine
end

