-- ==== Sys2Proof/Laws/Ops.lean ====
section
/-! SUPPORT. One lemma for each shared operation that says what it can do; the proofs cite these and do not unfold
the operations again. -/

namespace Sys2Proof.Machine

/-! ## The host port (R62, R63) -/

theorem busy_eq_true_iff (s : State) : State.busy s = true ↔ s.slState ≠ .idle := by
  simp [State.busy]

/-- A host operation answers a next state exactly in `Idle`, and then the one its effect gives. -/
theorem hostOp_eq_next_iff (s t : State) (f : State → State) :
    hostOp s f = .next t ↔ s.slState = .idle ∧ f s = t := by
  unfold hostOp State.busy
  by_cases h : s.slState = .idle <;> simp [h]

theorem hostOp_of_idle (s : State) (f : State → State) (h : s.slState = .idle) : hostOp s f = .next (f s) :=
  (hostOp_eq_next_iff s _ f).2 ⟨h, rfl⟩

theorem hostOp_of_busy (s : State) (f : State → State) (h : s.slState ≠ .idle) : hostOp s f = .refused .busy := by
  simp [hostOp, State.busy, h]

theorem exec_now (s : State) : exec .now s = hostOp s fun s => respond (zext32 s.tick) s := rfl

theorem exec_treset (id : Nat) (s : State) :
    exec (.treset id) s = hostOp s fun s => respond 0 (writeSnap s id s.tick) := rfl

theorem exec_telapsed (id : Nat) (s : State) :
    exec (.telapsed id) s =
      hostOp s fun s => respond (if id < Config.nTimers then zext32 (elapsed s id) else 0) s := rfl

theorem exec_setduty (r g b : Nat) (s : State) :
    exec (.setduty r g b) s =
      hostOp s fun s => respond 0 { s with duty := ⟨clamp100 r, clamp100 g, clamp100 b⟩ } := rfl

theorem exec_poll (s : State) :
    exec .poll s =
      hostOp s fun s =>
        if sensorDue s then noResponse (openTransaction s) else respond (ResultCode.word .notDue) s := rfl

theorem exec_gethum (s : State) :
    exec .gethum s = hostOp s fun s => respond (readingWord s.humValid s.humVal) s := rfl

theorem exec_gettemp (s : State) :
    exec .gettemp s = hostOp s fun s => respond (readingWord s.tempValid s.tempVal) s := rfl

theorem exec_geterr (s : State) :
    exec .geterr s = hostOp s fun s => respond (s.err.zeroExtend 32) s := rfl

/-! ## Ticks (R12, R110) -/

theorem tickRange_pos (p : Params) : 0 < tickRange p := Nat.two_pow_pos _

theorem tickSucc_lt (p : Params) (t : Nat) : tickSucc p t < tickRange p :=
  Nat.mod_lt _ (tickRange_pos p)

/-- `sub_W` is subtraction of integers modulo `2^TICK_W`, whatever its operands. -/
theorem subW_eq_int_mod (p : Params) (a b : Nat) :
    ((subW p a b : Nat) : Int) = ((a : Int) - b) % (tickRange p : Int) := by
  have hb : b % tickRange p < tickRange p := Nat.mod_lt _ (tickRange_pos p)
  have hd : (b : Int) = (tickRange p : Int) * (b / tickRange p : Nat) + (b % tickRange p : Nat) := by
    exact_mod_cast (Nat.div_add_mod b (tickRange p)).symm
  have hshift : ((a : Int) + ((tickRange p : Int) - ((b % tickRange p : Nat) : Int)))
      = ((a : Int) - b) + (tickRange p : Int) * (1 + (b / tickRange p : Nat)) := by
    rw [hd]; ring_nf
  unfold subW
  rw [Int.natCast_mod, Int.natCast_add, Int.natCast_sub hb.le, hshift, Int.add_mul_emod_self_left]

theorem subW_self (p : Params) (a : Nat) : subW p a a = 0 := by
  simpa using subW_eq_int_mod p a a

/-- One tick later the difference is one more, modulo `2^TICK_W`. -/
theorem subW_tickSucc (p : Params) (a b : Nat) :
    subW p (tickSucc p a) b = (subW p a b + 1) % tickRange p := by
  unfold subW tickSucc
  rw [Nat.mod_add_mod, Nat.mod_add_mod]
  congr 1; omega

theorem readSnap_eq_getElem (s : State) (id : Fin Config.nTimers) : readSnap s id.val = s.snap[id] := by
  simp [readSnap, id.isLt]

/-- The model's elapsed time is the difference of integers that R12 and R113 name. -/
theorem elapsed_eq_ticksSince (s : State) (id : Fin Config.nTimers) : elapsed s id.val = ticksSince s id := by
  have h := subW_eq_int_mod s.params s.tick (readSnap s id.val)
  rw [readSnap_eq_getElem] at h
  unfold elapsed ticksSince
  rw [readSnap_eq_getElem, show ((2 ^ s.params.tickW : Nat) : Int) = (tickRange s.params : Int) from rfl, ← h]
  rfl

theorem sensorDue_eq_true_iff (s : State) : sensorDue s = true ↔ SensorIsDue s := by
  simp [sensorDue, SensorIsDue, elapsed_eq_ticksSince]

/-! ## Timers (R22) -/

theorem writeSnap_of_valid (s : State) (id v : Nat) (h : id < Config.nTimers) :
    writeSnap s id v = { s with snap := s.snap.set id v } := by
  simp [writeSnap, h]

theorem writeSnap_of_invalid (s : State) (id v : Nat) (h : ¬ id < Config.nTimers) : writeSnap s id v = s := by
  simp [writeSnap, h]

/-- A timer that was written reads as written, another as before. -/
theorem readSnap_writeSnap (s : State) (i j v : Nat) (h : i < Config.nTimers) :
    readSnap (writeSnap s i v) j = if i = j then v else readSnap s j := by
  rw [writeSnap_of_valid s i v h]
  by_cases hj : j < Config.nTimers
  · simp only [readSnap, hj, dite_true, Vector.getElem_set]
  · have : i ≠ j := by omega
    simp [readSnap, hj, this]

theorem readSnap_congr (s t : State) (h : t.snap = s.snap) (id : Nat) : readSnap t id = readSnap s id := by
  simp [readSnap, h]

/-! ## The frame (R95, R96, R171) -/

/-- Storing the bit of sequence index `i` changes bit `39 - i` alone. -/
theorem storeBit_getLsbD (f : Frame) (i : Nat) (bit : Bool) (j : Nat) (hi : i < 40) (hj : j < 40) :
    (storeBit f i bit).getLsbD j = if j = 39 - i then bit else f.getLsbD j := by
  unfold storeBit
  cases bit <;> by_cases h : j = 39 - i <;> simp [h, hj, BitVec.getLsbD_shiftLeft] <;> try omega

theorem frameByte_toNat (f : Frame) (k : Nat) : (frameByte f k).toNat = f.toNat / 2 ^ (32 - 8 * k) % 256 := by
  simp [frameByte, Nat.shiftRight_eq_div_pow]

/-! ## Numbers (R13, R15) -/

theorem div10r_eq (x : Nat) : div10r x = (x + 5) / 10 := by
  unfold div10r; split <;> omega

theorem satInc_toNat (e : Byte) : (satInc e).toNat = min (e.toNat + 1) 255 := by
  unfold satInc
  split
  · next h => subst h; rfl
  · next h =>
    have hne : e.toNat ≠ 255 := fun hh => h (BitVec.eq_of_toNat_eq hh)
    have hlt := e.isLt
    rw [BitVec.toNat_add]; simp; omega

theorem humRaw_lt (f : Frame) : humRaw f < 65536 := by
  have h0 := (frameByte f 0).isLt
  have h1 := (frameByte f 1).isLt
  unfold humRaw; omega

theorem tempRaw_lt_of_flag (f : Frame) (h : tempFlag f = false) : tempRaw f < 32768 := by
  have h2 := (frameByte f 2).isLt
  have h3 := (frameByte f 3).isLt
  have htop : (frameByte f 2).toNat < 128 := by
    unfold tempFlag at h
    rw [← BitVec.testBit_toNat] at h
    exact Nat.lt_of_not_le fun hle => by
      have : (frameByte f 2).toNat.testBit 7 = true := by
        rw [Nat.testBit_eq_decide_div_mod_eq]; simp; omega
      simp [this] at h
  unfold tempRaw; omega

/-! ## The completion of a transaction (R169) -/

/-- Completion either updates the cache and succeeds or aborts with code 7. -/
theorem completion_cases (s : State) :
    (checksumGood s.frame = true ∧
      completion s = endSuccess (successSequence (humRaw s.frame) (tempFlag s.frame) (tempRaw s.frame) s)) ∨
    (checksumGood s.frame = false ∧ completion s = abort .checksumError s) := by
  unfold completion
  cases h : checksumGood s.frame <;> simp

/-! ## Sampling (R161 to R168) -/

/-- What a `SAMPLE` can do: in a wait stage, a match, a miss below the cap, or the abort of the stage. -/
theorem execSample_cases {lv : Level} {s t : State} (h : execSample lv s = .next t) :
    ∃ awaited code, SlState.wait s.slState = some (awaited, code) ∧
      ((lv = awaited ∧ t = sampleMatch (noResponse s)) ∨
       (lv ≠ awaited ∧ s.toCnt + 1 ≠ s.params.sensTimeout ∧ t = { noResponse s with toCnt := s.toCnt + 1 }) ∨
       (lv ≠ awaited ∧ s.toCnt + 1 = s.params.sensTimeout ∧ t = abort code (noResponse s))) := by
  unfold execSample at h
  split at h
  · cases h
  · next awaited code hw =>
    refine ⟨awaited, code, hw, ?_⟩
    cases h
    by_cases hm : lv = awaited
    · exact .inl ⟨hm, by simp [hm]⟩
    · by_cases hc : s.toCnt + 1 = s.params.sensTimeout
      · exact .inr (.inr ⟨hm, hc, by simp [hm, sampleMiss, hc]⟩)
      · exact .inr (.inl ⟨hm, hc, by simp [hm, sampleMiss, hc]⟩)

/-- A wait stage is neither `Idle` nor `ReqPulse`. -/
theorem wait_isSome {st : SlState} {p : Level × ResultCode} (h : SlState.wait st = some p) :
    st ≠ .idle ∧ st ≠ .reqPulse := by
  cases st <;> simp_all [SlState.wait]

/-! ## The PWM sub-cycle (R133) -/

theorem rgb_get_zipWith {α β γ : Type} (f : α → β → γ) (u : Rgb α) (v : Rgb β) (c : Channel) :
    Rgb.get (Rgb.zipWith f u v) c = f (Rgb.get u c) (Rgb.get v c) := by
  cases c <;> rfl

/-- Below the wrap a sub-cycle counts and clears at the match. -/
theorem pwmSubCycle_of_lt (s : State) (h : s.pwmCnt < 99) :
    pwmSubCycle s = { s with
      pwmCnt := s.pwmCnt + 1, pwmOut := Rgb.zipWith (clearAtMatch (s.pwmCnt + 1)) s.duty s.pwmOut } := by
  have hw : pwmWraps s = false := by simp [pwmWraps, Config.pwmPeriod]; omega
  simp [pwmSubCycle, hw]

/-- At the wrap a sub-cycle asserts exactly the channels with a duty. -/
theorem pwmSubCycle_of_ge (s : State) (h : 99 ≤ s.pwmCnt) :
    pwmSubCycle s = { s with
      pwmCnt := 0, pwmOut := ⟨s.duty.r != 0, s.duty.g != 0, s.duty.b != 0⟩ } := by
  have hw : pwmWraps s = true := by simp [pwmWraps, Config.pwmPeriod]; omega
  have hc : ∀ d o, clearAtMatch 0 d (assertAtWrap d o) = (d != 0) := by
    intro d o
    by_cases hd : d = 0
    · simp [clearAtMatch, hd]
    · simp [clearAtMatch, assertAtWrap, hd, Ne.symm hd]
  simp [pwmSubCycle, hw, Rgb.zipWith, hc]

/-! ## Runs (R60, R73) -/

theorem run_cons_of_next {i : Instr} {s u : State} (is : List Instr) (h : exec i s = .next u) :
    run (i :: is) s = run is u := by
  simp [run, h]

/-- The first step of a run that completes has completed. -/
theorem run_cons_eq_next_iff (i : Instr) (is : List Instr) (s t : State) :
    run (i :: is) s = .next t ↔ ∃ u, exec i s = .next u ∧ run is u = .next t := by
  simp only [run]
  cases exec i s <;> simp

theorem run_append_of_next {is : List Instr} (js : List Instr) {s u : State} (h : run is s = .next u) :
    run (is ++ js) s = run js u := by
  induction is generalizing s with
  | nil => cases h; rfl
  | cons i is ih =>
    obtain ⟨v, hv, hr⟩ := (run_cons_eq_next_iff i is s u).1 h
    rw [List.cons_append, run_cons_of_next _ hv, ih hr]

theorem run_append_eq_next_iff (is js : List Instr) (s t : State) :
    run (is ++ js) s = .next t ↔ ∃ u, run is s = .next u ∧ run js u = .next t := by
  induction is generalizing s with
  | nil => simp [run]
  | cons i is ih =>
    rw [List.cons_append, run_cons_eq_next_iff]
    constructor
    · rintro ⟨v, hv, hr⟩
      obtain ⟨u, hu, ht⟩ := (ih v).1 hr
      exact ⟨u, (run_cons_eq_next_iff i is s u).2 ⟨v, hv, hu⟩, ht⟩
    · rintro ⟨u, hu, ht⟩
      obtain ⟨v, hv, hr⟩ := (run_cons_eq_next_iff i is s u).1 hu
      exact ⟨v, hv, (ih v).2 ⟨u, hr, ht⟩⟩

end Sys2Proof.Machine
end

