-- ==== Sys2Proof/Laws/PerInstr.lean ====
section
/-! SUPPORT. Statements for all steps, made step by step: each step's encoding is the one its rule gives
(30_encoding.md R83 to R90, R99). -/

namespace Sys2Proof.Laws.EncodeMatchesTable

/-- The encoding as the step's rule writes it. -/
def Statement (i : Instr) : Prop :=
  i.wf = true →
    match i with
    | .now => encode i = .cmd 0x00000000#32
    | .treset id => encode i = .cmd (0x10000000#32 ||| BitVec.ofNat 32 id)
    | .telapsed id => encode i = .cmd (0x20000000#32 ||| BitVec.ofNat 32 id)
    | .setduty r g b => encode i = .cmd
        (0x30000000#32 ||| (BitVec.ofNat 32 r <<< 16) ||| (BitVec.ofNat 32 g <<< 8) ||| BitVec.ofNat 32 b)
    | .poll => encode i = .cmd 0x40000000#32
    | .gethum => encode i = .cmd 0x50000000#32
    | .gettemp => encode i = .cmd 0x60000000#32
    | .geterr => encode i = .cmd 0x70000000#32
    | .reset => encode i = .rst
    | .tickEv => encode i = .irqTick
    | .cmpEv => encode i = .irqCmp
    | .bitEv => encode i = .bitClk
    | .sample lv => encode i = .line lv

/-- Operand bytes that fit their fields are the fields of the word R81 draws. -/
theorem cmdWord_eq_or (op : BitVec 4) (a b c : Nat) (ha : a < 256) (hb : b < 256) (hc : c < 256) :
    cmdWord op a b c =
      (op.zeroExtend 32 <<< 28) ||| (BitVec.ofNat 32 a <<< 16) ||| (BitVec.ofNat 32 b <<< 8) ||| BitVec.ofNat 32 c := by
  have hop := op.isLt
  have e1 := Nat.two_pow_add_eq_or_of_lt (i := 8) (by simpa using hc) b
  have e2 := Nat.two_pow_add_eq_or_of_lt (i := 16) (b := 2 ^ 8 * b + c) (by omega) a
  have e3 := Nat.two_pow_add_eq_or_of_lt (i := 28) (b := 2 ^ 16 * a + (2 ^ 8 * b + c)) (by omega) op.toNat
  rw [e1] at e2
  rw [e1, e2] at e3
  have h28 : (op.zeroExtend 32 <<< 28).toNat = 2 ^ 28 * op.toNat := by simp [Nat.shiftLeft_eq]; omega
  have h16 : (BitVec.ofNat 32 a <<< 16).toNat = 2 ^ 16 * a := by simp [Nat.shiftLeft_eq]; omega
  have h8 : (BitVec.ofNat 32 b <<< 8).toNat = 2 ^ 8 * b := by simp [Nat.shiftLeft_eq]; omega
  have h0 : (BitVec.ofNat 32 c).toNat = c := by simp; omega
  apply BitVec.eq_of_toNat_eq
  rw [cmdWord_toNat, BitVec.toNat_or, BitVec.toNat_or, BitVec.toNat_or, h28, h16, h8, h0,
    Nat.or_assoc, Nat.or_assoc, ← e3]
  omega

theorem now : Statement .now := fun _ => rfl

theorem treset (id : Nat) : Statement (.treset id) := fun h => by
  have hid : id < 256 := of_decide_eq_true h
  show Stimulus.cmd _ = _
  rw [cmdWord_eq_or _ _ _ _ (by decide) (by decide) hid]; simp

theorem telapsed (id : Nat) : Statement (.telapsed id) := fun h => by
  have hid : id < 256 := of_decide_eq_true h
  show Stimulus.cmd _ = _
  rw [cmdWord_eq_or _ _ _ _ (by decide) (by decide) hid]; simp

theorem setduty (r g b : Nat) : Statement (.setduty r g b) := fun h => by
  simp only [Instr.wf, fitsByte, Bool.and_eq_true, decide_eq_true_eq] at h
  show Stimulus.cmd _ = _
  rw [cmdWord_eq_or _ _ _ _ h.1.1 h.1.2 h.2]; simp

theorem poll : Statement .poll := fun _ => rfl

theorem gethum : Statement .gethum := fun _ => rfl

theorem gettemp : Statement .gettemp := fun _ => rfl

theorem geterr : Statement .geterr := fun _ => rfl

theorem reset : Statement .reset := fun _ => rfl

theorem tickEv : Statement .tickEv := fun _ => rfl

theorem cmpEv : Statement .cmpEv := fun _ => rfl

theorem bitEv : Statement .bitEv := fun _ => rfl

theorem sample (lv : Level) : Statement (.sample lv) := fun _ => rfl

end Sys2Proof.Laws.EncodeMatchesTable
end

