-- ==== Sys2Proof/Laws/Ports.lean ====
section
/-! SUPPORT. What `serialise` presents, and how runs of the machine compose. -/

namespace Sys2Proof.Machine

/-- With `rst` a cycle presents `RESET` alone (R76). -/
theorem serialise_of_rst (c : InPorts) (h : c.rst = true) : serialise c = [.rst] := by
  simp [serialise, h]

/-- Without `rst` a cycle presents stimuli that decode to its events in order, then its command word (R76). -/
theorem serialise_of_no_rst (c : InPorts) (h : c.rst = false) :
    ∃ xs, serialise c = xs ++ (if c.cmdValid then [.cmd c.cmd] else []) ∧
      List.Forall₂ (fun x i => decode x = .ok i) xs (cycleEvents c) := by
  refine ⟨(if c.irqTick then [.irqTick] else []) ++ (if c.bitClk then [.bitClk] else []) ++
    (if c.irqCmp then [.irqCmp] else []) ++ (if c.sampling then [.line c.lineIn] else []),
    by simp [serialise, h], ?_⟩
  cases h1 : c.irqTick <;> cases h2 : c.bitClk <;> cases h3 : c.irqCmp <;> cases h4 : c.sampling <;>
    simp [cycleEvents, h1, h2, h3, h4, decode]

/-- A run of `n + k` steps whose first `n` complete is the run of the other `k` from where they end. -/
theorem coreRun_add_of_next (M : Host.Core) (n k : Nat) (s t : M.State) (h : M.run n s = .next t) :
    M.run (n + k) s = M.run k t := by
  induction n generalizing s with
  | zero => cases h; rw [Nat.zero_add]
  | succ n ih =>
    rw [Nat.succ_add]
    rw [Host.Core.run] at h ⊢
    cases hs : M.step s with
    | next v => simp only [hs] at h; exact ih v h
    | fault f => rw [hs] at h; cases h
    | refused r => rw [hs] at h; cases h

end Sys2Proof.Machine
end

