-- ==== Sys2Proof/Laws/Steps.lean ====
section
/-! SUPPORT. What each step can do, said once: an inversion lemma for every meaning. Proofs about all steps go
through these and unfold no meaning. -/

namespace Sys2Proof.Machine

/-! ## Host operations -/

theorem hostOp_inv {s t : State} {f : State → State} (h : hostOp s f = .next t) : s.slState = .idle ∧ t = f s :=
  ⟨((hostOp_eq_next_iff s t f).1 h).1, ((hostOp_eq_next_iff s t f).1 h).2.symm⟩

/-- `POLL` opens a transaction if the sensor is due and answers 1 if it is not (R155). -/
theorem execPoll_cases {s t : State} (h : exec .poll s = .next t) :
    s.slState = .idle ∧
      ((sensorDue s = true ∧ t = { noResponse s with
          snap := s.snap.set s.params.sensorTimer.val s.tick, pwmEn := false, lineDrv := true
          slState := .reqPulse, reqCnt := 0, bitIdx := 0, toCnt := 0, frame := 0 }) ∨
       (sensorDue s = false ∧ t = respond 1 s)) := by
  rw [exec_poll] at h
  obtain ⟨hi, rfl⟩ := hostOp_inv h
  refine ⟨hi, ?_⟩
  cases hd : sensorDue s
  · right; exact ⟨rfl, rfl⟩
  · left; exact ⟨rfl, by simp [openTransaction, writeSnap_of_valid _ _ _ s.params.sensorTimer.isLt]; rfl⟩

/-- What an accepted host operation does: respond alone, write a timer, replace the duties, or `POLL`'s two cases. -/
theorem exec_hostOp_cases {i : Instr} {s t : State} (hi : i.isHostOp = true) (h : exec i s = .next t) :
    s.slState = .idle ∧
      ((∃ v, t = respond v s ∧
          (i = .now ∨ (∃ id, i = .telapsed id) ∨ i = .gethum ∨ i = .gettemp ∨ i = .geterr)) ∨
       (∃ id, i = .treset id ∧ t = respond 0 (writeSnap s id s.tick)) ∨
       (∃ r g b, i = .setduty r g b ∧
          t = respond 0 { s with duty := ⟨clamp100 r, clamp100 g, clamp100 b⟩ }) ∨
       (i = .poll ∧ sensorDue s = true ∧ t = { noResponse s with
          snap := s.snap.set s.params.sensorTimer.val s.tick, pwmEn := false, lineDrv := true
          slState := .reqPulse, reqCnt := 0, bitIdx := 0, toCnt := 0, frame := 0 }) ∨
       (i = .poll ∧ sensorDue s = false ∧ t = respond 1 s)) := by
  cases i with
  | now => rw [exec_now] at h; obtain ⟨a, rfl⟩ := hostOp_inv h; exact ⟨a, .inl ⟨_, rfl, by simp⟩⟩
  | treset id =>
    rw [exec_treset] at h; obtain ⟨a, rfl⟩ := hostOp_inv h; exact ⟨a, .inr (.inl ⟨id, rfl, rfl⟩)⟩
  | telapsed id => rw [exec_telapsed] at h; obtain ⟨a, rfl⟩ := hostOp_inv h; exact ⟨a, .inl ⟨_, rfl, by simp⟩⟩
  | setduty r g b =>
    rw [exec_setduty] at h; obtain ⟨a, rfl⟩ := hostOp_inv h
    exact ⟨a, .inr (.inr (.inl ⟨r, g, b, rfl, rfl⟩))⟩
  | poll =>
    obtain ⟨a, hc⟩ := execPoll_cases h
    refine ⟨a, ?_⟩
    rcases hc with ⟨hd, ht⟩ | ⟨hd, ht⟩ <;> simp [hd, ht]
  | gethum => rw [exec_gethum] at h; obtain ⟨a, rfl⟩ := hostOp_inv h; exact ⟨a, .inl ⟨_, rfl, by simp⟩⟩
  | gettemp => rw [exec_gettemp] at h; obtain ⟨a, rfl⟩ := hostOp_inv h; exact ⟨a, .inl ⟨_, rfl, by simp⟩⟩
  | geterr => rw [exec_geterr] at h; obtain ⟨a, rfl⟩ := hostOp_inv h; exact ⟨a, .inl ⟨_, rfl, by simp⟩⟩
  | reset => cases hi
  | tickEv => cases hi
  | cmpEv => cases hi
  | bitEv => cases hi
  | sample lv => cases hi

/-! ## Events -/

/-- `TICK_EV` outside the request pulse, inside it, and at its last tick (R110, R159). -/
theorem execTickEv_cases {s t : State} (h : exec .tickEv s = .next t) :
    (s.slState ≠ .reqPulse ∧ t = { noResponse s with tick := tickSucc s.params s.tick }) ∨
    (s.slState = .reqPulse ∧ s.reqCnt + 1 ≠ s.params.reqLow ∧
      t = { noResponse s with tick := tickSucc s.params s.tick, reqCnt := s.reqCnt + 1 }) ∨
    (s.slState = .reqPulse ∧ s.reqCnt + 1 = s.params.reqLow ∧
      t = { noResponse s with
        tick := tickSucc s.params s.tick, slState := .waitAck0, toCnt := 0, lineDrv := false, reqCnt := 0 }) := by
  simp only [exec, execTickEv] at h
  by_cases h1 : s.slState = .reqPulse
  · by_cases h2 : s.reqCnt + 1 = s.params.reqLow
    · right; right; simp [h1, countRequestPulse, h2] at h; exact ⟨h1, h2, h.symm⟩
    · right; left; simp [h1, countRequestPulse, h2] at h; exact ⟨h1, h2, by rw [← h]; simp [h1, noResponse]⟩
  · left; simp [h1] at h; exact ⟨h1, h.symm⟩

/-- `CMP_EV` dropped, below the wrap, and at the wrap (R133, R134). -/
theorem execCmpEv_cases {s t : State} (h : exec .cmpEv s = .next t) :
    (s.pwmEn = false ∧ t = noResponse s) ∨
    (s.pwmEn = true ∧ s.pwmCnt < 99 ∧ t = { noResponse s with
      pwmCnt := s.pwmCnt + 1, pwmOut := Rgb.zipWith (clearAtMatch (s.pwmCnt + 1)) s.duty s.pwmOut }) ∨
    (s.pwmEn = true ∧ 99 ≤ s.pwmCnt ∧ t = { noResponse s with
      pwmCnt := 0, pwmOut := ⟨s.duty.r != 0, s.duty.g != 0, s.duty.b != 0⟩ }) := by
  have h : t = if s.pwmEn then pwmSubCycle (noResponse s) else noResponse s := by
    simp only [exec, execCmpEv] at h; cases h; rfl
  cases he : s.pwmEn with
  | false => left; simp [he] at h; exact ⟨rfl, h⟩
  | true =>
    simp only [he, if_true] at h
    by_cases hc : s.pwmCnt < 99
    · rw [pwmSubCycle_of_lt _ (by simpa using hc)] at h
      right; left; exact ⟨rfl, hc, by rw [h]; simp⟩
    · rw [pwmSubCycle_of_ge _ (by simpa using hc)] at h
      right; right; exact ⟨rfl, by omega, by rw [h]; simp⟩

theorem execBitEv_eq {s t : State} (h : exec .bitEv s = .next t) :
    t = { noResponse s with bitCnt := s.bitCnt + 1 } := by
  cases h; rfl

theorem execReset_eq {s t : State} (h : exec .reset s = .next t) :
    t = { State.reset with params := s.params, inputs := s.inputs } := by
  have he : exec .reset s = .next { State.reset with params := s.params, inputs := s.inputs } := rfl
  rw [he] at h; cases h; rfl

/-! ## Sampling -/

/-- A miss at the cap aborts (R162). -/
theorem sampleMiss_of_cap (code : ResultCode) (s : State) (h : s.toCnt + 1 = s.params.sensTimeout) :
    sampleMiss code s = abort code s := by
  unfold sampleMiss; rw [if_pos h]

/-- A miss below the cap counts (R162). -/
theorem sampleMiss_of_lt (code : ResultCode) (s : State) (h : s.toCnt + 1 ≠ s.params.sensTimeout) :
    sampleMiss code s = { s with toCnt := s.toCnt + 1 } := by
  unfold sampleMiss; rw [if_neg h]

/-- The match at the end of the last slot completes (R168). -/
theorem sampleMatch_of_lastSlot (s : State) (h : s.slState = .bitWaitLow) (h39 : s.bitIdx = 39) :
    sampleMatch s =
      completion { s with frame := storeBit s.frame 39 (slotBit s.params s.bitCnt) } := by
  simp [sampleMatch, h, slotEnd, h39]

/-- Completion aborts with code 7, or leaves a state whose cached values are in their ranges (R169, R172). -/
theorem completion_shape (s : State) :
    completion s = abort .checksumError s ∨
      ∃ hv tv tf, hv.toNat ≤ 6554 ∧ (tv = s.tempVal ∨ tv.toNat ≤ 3277) ∧
        completion s = { s with
          humVal := hv, humValid := true, tempVal := tv, tempValid := tf, err := 0
          pwmEn := true, slState := .idle, rsp := some 0 } := by
  rcases completion_cases s with ⟨-, h⟩ | ⟨-, h⟩
  · right
    refine ⟨BitVec.ofNat 16 (div10r (humRaw s.frame)),
      if tempFlag s.frame then s.tempVal else BitVec.ofNat 16 (div10r (tempRaw s.frame)),
      !tempFlag s.frame, ?_, ?_, ?_⟩
    · have := humRaw_lt s.frame; rw [div10r_eq]; simp; omega
    · cases ht : tempFlag s.frame
      · right; have := tempRaw_lt_of_flag s.frame ht; rw [div10r_eq]; simp; omega
      · left; rfl
    · rw [h]; simp [endSuccess, successSequence, humidityUpdate, temperatureUpdate, respond, tempValidAfterSuccess]
      rfl
  · left; exact h

/-- Everything a `SAMPLE` can do: a match of each stage, the last one completing, a counted miss, an abort. -/
theorem execSample_stage_cases {lv : Level} {s t : State} (h : exec (.sample lv) s = .next t) :
    s.slState ≠ .idle ∧ s.slState ≠ .reqPulse ∧
    ((s.slState = .waitAck0 ∧ t = { noResponse s with slState := .waitAck1, toCnt := 0 }) ∨
     (s.slState = .waitAck1 ∧ t = { noResponse s with slState := .waitAck2, toCnt := 0 }) ∨
     (s.slState = .waitAck2 ∧ t = { noResponse s with slState := .bitWaitHigh, toCnt := 0, bitIdx := 0 }) ∨
     (s.slState = .bitWaitHigh ∧ t = { noResponse s with slState := .bitWaitLow, toCnt := 0, bitCnt := 0 }) ∨
     (s.slState = .bitWaitLow ∧ s.bitIdx < 39 ∧ t = { noResponse s with
        slState := .bitWaitHigh, toCnt := 0, bitIdx := s.bitIdx + 1
        frame := storeBit s.frame s.bitIdx (slotBit s.params s.bitCnt) }) ∨
     (s.slState = .bitWaitLow ∧ 39 ≤ s.bitIdx ∧ t = completion { noResponse s with
        frame := storeBit s.frame s.bitIdx (slotBit s.params s.bitCnt) }) ∨
     (s.toCnt + 1 ≠ s.params.sensTimeout ∧ t = { noResponse s with toCnt := s.toCnt + 1 }) ∨
     (s.toCnt + 1 = s.params.sensTimeout ∧
        ∃ code : ResultCode, code ≠ .success ∧ code ≠ .notDue ∧ t = abort code (noResponse s))) := by
  obtain ⟨aw, code, hw, hc⟩ := execSample_cases (show execSample lv s = .next t from h)
  obtain ⟨h1, h2⟩ := wait_isSome hw
  refine ⟨h1, h2, ?_⟩
  have hcode : code ≠ .success ∧ code ≠ .notDue := by
    cases hs : s.slState <;> rw [hs] at hw <;> simp [SlState.wait] at hw <;> rw [← hw.2] <;> decide
  rcases hc with ⟨-, ht⟩ | ⟨-, hcap, ht⟩ | ⟨-, hcap, ht⟩
  · cases hs : s.slState with
    | idle => exact absurd hs h1
    | reqPulse => exact absurd hs h2
    | waitAck0 => left; exact ⟨rfl, by rw [ht]; simp [sampleMatch, hs, enterStage]⟩
    | waitAck1 => right; left; exact ⟨rfl, by rw [ht]; simp [sampleMatch, hs, enterStage]⟩
    | waitAck2 => right; right; left; exact ⟨rfl, by rw [ht]; simp [sampleMatch, hs, enterStage]⟩
    | bitWaitHigh => right; right; right; left; exact ⟨rfl, by rw [ht]; simp [sampleMatch, hs, enterStage]⟩
    | bitWaitLow =>
      simp only [sampleMatch, hs, noResponse_slState] at ht
      by_cases hb : s.bitIdx < 39
      · right; right; right; right; left
        exact ⟨rfl, hb, by rw [ht]; simp only [slotEnd, noResponse_bitIdx, hb, if_true]; rfl⟩
      · right; right; right; right; right; left
        exact ⟨rfl, by omega, by rw [ht]; simp only [slotEnd, noResponse_bitIdx, hb, if_false]; rfl⟩
  · right; right; right; right; right; right; left; exact ⟨hcap, ht⟩
  · right; right; right; right; right; right; right; exact ⟨hcap, code, hcode.1, hcode.2, ht⟩

end Sys2Proof.Machine
end

