-- ==== Sys2Proof/Tests/Slice0.lean ====
section
/-! SUPPORT. Tests of the model's own. Expected results come from 30_encoding.md and 95_test_vectors.md (the vector's
name stands with the test), never from the model. The witnesses show that the hypotheses of the statements can be met. -/

namespace Sys2Proof.Tests

open Sys2Proof.Machine

/-! ## Helpers -/

/-- The parameters of 95_test_vectors.md: the defaults of R8, `SENSOR_PERIOD = 20`, `SENS_TIMEOUT = 4`. -/
def vecParams : Params := { Params.default with sensorPeriod := 20, sensTimeout := 4 }

/-- The reset state with these parameters. -/
def idle : State := { State.reset with params := vecParams }

/-- A transaction in the request pulse. -/
def pulse : State := { idle with slState := .reqPulse, pwmEn := false, lineDrv := true }

/-- A transaction in a wait stage. -/
def waiting (st : SlState) : State := { idle with slState := st, pwmEn := false }

/-- The next state of an outcome. -/
def nextOf : Host.Outcome State Fault Refusal → Option State
  | .next t => some t
  | .fault _ => none
  | .refused _ => none

/-- One field of the next state after a step. -/
def after {α : Type} (i : Instr) (s : State) (f : State → α) : Option α := (nextOf (exec i s)).map f

/-- The slot lengths that spell a frame, in sequence order: 70 counts for a 1, 28 for a 0 (95_test_vectors.md). -/
def slotLengths (f : Frame) : List Nat := (List.range 40).map fun i => if f.getLsbD (39 - i) then 70 else 28

/-! ## Ill-formed steps are refused by the check, one for each check (R84 to R86) -/

theorem test_wf_refuses_treset_256 : (Instr.treset 256).wf = false := by decide
theorem test_wf_refuses_telapsed_256 : (Instr.telapsed 256).wf = false := by decide
theorem test_wf_refuses_setduty_red_256 : (Instr.setduty 256 0 0).wf = false := by decide
theorem test_wf_refuses_setduty_green_256 : (Instr.setduty 0 256 0).wf = false := by decide
theorem test_wf_refuses_setduty_blue_256 : (Instr.setduty 0 0 256).wf = false := by decide
theorem test_wf_accepts_bounds :
    (Instr.treset 255).wf = true ∧ (Instr.telapsed 0).wf = true ∧ (Instr.setduty 255 0 255).wf = true := by decide

/-! ## Every constructor's encoding, written out bit by bit: OP, Z, A, B, C (R81, R83 to R90), or its wire (R99) -/

theorem test_decode_now : decode (.cmd 0b0000_0000_00000000_00000000_00000000) = .ok .now := by decide
theorem test_decode_treset : decode (.cmd 0b0001_0000_00000000_00000000_00000010) = .ok (.treset 2) := by decide
theorem test_decode_telapsed : decode (.cmd 0b0010_0000_00000000_00000000_11001000) = .ok (.telapsed 200) := by decide
theorem test_decode_setduty :
    decode (.cmd 0b0011_0000_11111111_00000000_01100101) = .ok (.setduty 255 0 101) := by decide
theorem test_decode_poll : decode (.cmd 0b0100_0000_00000000_00000000_00000000) = .ok .poll := by decide
theorem test_decode_gethum : decode (.cmd 0b0101_0000_00000000_00000000_00000000) = .ok .gethum := by decide
theorem test_decode_gettemp : decode (.cmd 0b0110_0000_00000000_00000000_00000000) = .ok .gettemp := by decide
theorem test_decode_geterr : decode (.cmd 0b0111_0000_00000000_00000000_00000000) = .ok .geterr := by decide
theorem test_decode_strobes :
    decode .rst = .ok .reset ∧ decode .irqTick = .ok .tickEv ∧ decode .irqCmp = .ok .cmpEv ∧
    decode .bitClk = .ok .bitEv ∧ decode (.line false) = .ok (.sample false) := by decide
/-- E8 to E11. -/
theorem test_decode_reserved :
    decode (.cmd 0x01000000) = .error .nonZeroZ ∧ decode (.cmd 0x40000001) = .error .operandByte ∧
    decode (.cmd 0x10000102) = .error .operandByte ∧ decode (.cmd 0x80000000) = .error .opcode ∧
    decode (.cmd 0xF0000000) = .error .opcode ∧ decode (.cmd 0xFFFFFFFF) = .error .nonZeroZ := by decide
theorem test_table_words :
    decodeTableWord 32 0x30001E64 = some (.setduty 0 30 100) ∧ decodeTableWord 8 1 = some (.sample true) ∧
    decodeTableWord 32 0x80000000 = none ∧ decodeTableWord 0 0 = none := by decide

/-- R76: the order of a cycle with every input set, without and with `rst`. -/
theorem test_serialise_order :
    serialise ⟨false, true, true, true, true, true, true, 0x40000000⟩ =
      [.irqTick, .bitClk, .irqCmp, .line true, .cmd 0x40000000] ∧
    serialise ⟨true, true, true, true, true, true, true, 0x40000000⟩ = [.rst] := by decide

/-! ## Single steps -/

/-- T9. -/
theorem test_now : after .now { idle with tick := 5 } (·.rsp) = some (some 5) := by decide
/-- T1. -/
theorem test_treset : after (.treset 2) { idle with tick := 1000 } (·.snap) = some #v[0, 0, 1000, 0] := by decide
/-- T5. -/
theorem test_treset_bad_id :
    after (.treset 4) { idle with tick := 77, snap := #v[1, 2, 3, 4] } (fun t => (t.snap, t.rsp)) =
      some (#v[1, 2, 3, 4], some 0) := by decide
/-- T3: the difference across a wrap. -/
theorem test_telapsed_wraps :
    after (.telapsed 1) { idle with tick := 3, snap := #v[0, 0xFFFFFFFE, 0, 0] } (·.rsp) = some (some 5) := by decide
/-- T5. -/
theorem test_telapsed_bad_id : after (.telapsed 255) { idle with tick := 77 } (·.rsp) = some (some 0) := by decide
/-- W9. -/
theorem test_setduty_clamps : after (.setduty 101 200 255) idle (·.duty) = some ⟨100, 100, 100⟩ := by decide
/-- W10: the order of the channels. -/
theorem test_setduty_order :
    after (.setduty 4 5 6) { idle with duty := ⟨1, 2, 3⟩ } (fun t => (t.duty, t.pwmCnt)) = some (⟨4, 5, 6⟩, 0) := by
  decide
/-- L1: one tick short of `SENSOR_PERIOD`. -/
theorem test_poll_not_due :
    after .poll { idle with tick := 19 } (fun t => (t.rsp, t.slState)) = some (some 1, .idle) := by decide
/-- L2. -/
theorem test_poll_due :
    after .poll { idle with tick := 20 } (fun t => (t.rsp, t.slState, t.snap, t.pwmEn, t.lineDrv)) =
      some (none, .reqPulse, #v[20, 0, 0, 0], false, true) := by decide
/-- E13. -/
theorem test_gethum :
    after .gethum { idle with humVal := 6554, humValid := true } (·.rsp) = some (some 0x0001199A) := by decide
/-- E12. -/
theorem test_gettemp_not_valid : after .gettemp { idle with tempVal := 20 } (·.rsp) = some (some 0x00000014) := by decide
/-- P4, step 7. -/
theorem test_geterr : after .geterr { idle with err := 1 } (fun t => (t.rsp, t.err)) = some (some 1, 1) := by decide
/-- L19. -/
theorem test_reset :
    after .reset { waiting .waitAck1 with tick := 38, snap := #v[20, 0, 0, 0], toCnt := 2 } id = some idle := by decide
/-- T4. -/
theorem test_tick_wraps : after .tickEv { idle with tick := 0xFFFFFFFF } (·.tick) = some 0 := by decide
/-- L3: the eighteenth tick of the request pulse. -/
theorem test_tick_releases_line :
    after .tickEv { pulse with tick := 37, reqCnt := 17 } (fun t => (t.lineDrv, t.slState, t.reqCnt, t.tick)) =
      some (false, .waitAck0, 0, 38) := by decide
/-- W1. -/
theorem test_cmp_wrap :
    after .cmpEv { idle with pwmCnt := 99, duty := ⟨0, 30, 100⟩, pwmOut := ⟨false, false, true⟩ }
      (fun t => (t.pwmCnt, t.pwmOut)) = some (0, ⟨false, true, true⟩) := by decide
/-- W2. -/
theorem test_cmp_match :
    after .cmpEv { idle with pwmCnt := 29, duty := ⟨0, 30, 100⟩, pwmOut := ⟨false, true, true⟩ }
      (fun t => (t.pwmCnt, t.pwmOut)) = some (30, ⟨false, false, true⟩) := by decide
/-- L11: 256 counts read as 0. -/
theorem test_bit_wraps : after .bitEv { waiting .bitWaitLow with bitCnt := 255 } (·.bitCnt) = some 0 := by decide
/-- P4, step 13: the second failure clears both flags. -/
theorem test_sample_timeout :
    after (.sample false)
      { waiting .waitAck1 with toCnt := 3, err := 1, humVal := 40, humValid := true, tempVal := 20, tempValid := true }
      (fun t => (t.rsp, t.err, t.humVal, t.humValid, t.tempVal, t.tempValid)) =
      some (some 3, 2, 40, false, 20, false) := by decide
/-- S4 and P3, step 15: the last bit of the frame `01 90 00 C8 59`. -/
theorem test_sample_completes :
    after (.sample false) { waiting .bitWaitLow with bitIdx := 39, frame := 0x019000C858, bitCnt := 70 }
      (fun t => ((t.frame, t.rsp, t.err), t.humVal, t.humValid, t.tempVal, t.tempValid)) =
      some ((0x019000C859, some 0, 0), 40, true, 20, true) := by decide

/-! ## The hypotheses of the statements can be met -/

theorem witness_DecodeOfEncodeIsIdentity : (Instr.setduty 255 0 101).wf = true ∧ (Instr.treset 255).wf = true := by
  decide
theorem witness_DecodedStimulusReencodes : decode (.cmd 0x200000FF) = .ok (.telapsed 255) := by decide
theorem witness_FrameBytesAndFieldsAreBigEndian : (39 : Nat) < 40 ∧ tempFlag 0x00007FFF00 = false := by decide
theorem witness_StepRunsDecodedInstruction :
    ∃ s : State, s.inputs = [.irqTick, .rst] ∧ decode .irqTick = .ok .tickEv :=
  ⟨{ idle with inputs := [.irqTick, .rst] }, by decide⟩
theorem witness_StepOtherwiseRefusesOrIdles :
    (∃ s : State, s.inputs = [.cmd 0x80000000] ∧ decode (.cmd 0x80000000) = .error .opcode) ∧
    ∃ s : State, s.inputs = [] :=
  ⟨⟨{ idle with inputs := [.cmd 0x80000000] }, by decide⟩, ⟨idle, by decide⟩⟩
theorem witness_PresentedWordRunsNext : decode (.cmd 0x40000000) = .ok .poll := by decide
theorem witness_ExecIgnoresPendingInputs :
    (∃ t, exec .now idle = .next t) ∧ exec .now pulse = .refused .busy := ⟨⟨_, rfl⟩, rfl⟩
theorem witness_QueuedEncodingsRunInOrder :
    ∃ s : State, s.inputs = [Instr.tickEv, .now].map encode ++ [.rst] ∧ Instr.wf .tickEv = true ∧ Instr.wf .now = true :=
  ⟨{ idle with inputs := [.irqTick, .cmd 0, .rst] }, by decide⟩
/-- For each clause: `rst` with every other input set; no command; every input with `NOW`; a reserved word after an
event; the case that R76 names. -/
theorem witness_SimultaneousInputsAreSerialised :
    (∃ c : InPorts, c.rst = true ∧ idle.inputs = []) ∧
    (∃ c : InPorts, c.rst = false ∧ c.cmdValid = false ∧ cycleEvents c = [.tickEv, .bitEv, .cmpEv]) ∧
    (∃ c : InPorts, c.rst = false ∧ c.cmdValid = true ∧ decode (.cmd c.cmd) = .ok .now ∧
      cycleEvents c = [.tickEv, .bitEv, .cmpEv, .sample true]) ∧
    (∃ (c : InPorts) (u : State), c.rst = false ∧ c.cmdValid = true ∧ decode (.cmd c.cmd) = .error .opcode ∧
      run (cycleEvents c) idle = .next u) ∧
    ∃ (c : InPorts) (s : State), s.inputs = [] ∧ c.rst = false ∧ c.irqTick = true ∧ c.bitClk = false ∧
      c.irqCmp = false ∧ c.sampling = true ∧ c.lineIn = false ∧ c.cmdValid = false ∧ s.slState = .reqPulse ∧
      s.reqCnt + 1 = s.params.reqLow :=
  ⟨⟨⟨true, true, true, true, true, true, true, 0⟩, by decide⟩,
   ⟨⟨false, true, true, true, false, true, false, 0⟩, by decide⟩,
   ⟨⟨false, true, true, true, true, true, true, 0⟩, by decide⟩,
   ⟨⟨false, true, false, false, false, true, true, 0x80000000⟩, _, by decide, by decide, by decide, rfl⟩,
   ⟨⟨false, true, false, false, true, false, false, 0⟩, { pulse with reqCnt := 17 }, by decide⟩⟩
theorem witness_TickEvAdvancesTickAndRequestPulse :
    idle.slState ≠ .reqPulse ∧ (pulse.slState = .reqPulse ∧ pulse.reqCnt + 1 ≠ pulse.params.reqLow) ∧
    ∃ s : State, s.slState = .reqPulse ∧ s.reqCnt + 1 = s.params.reqLow :=
  ⟨by decide, by decide, { pulse with reqCnt := 17 }, by decide⟩
/-- For every statement whose hypothesis is `Idle` alone: the counters, `SETDUTY` and the readings. -/
theorem witness_NowAndGeterrRespondCounters : idle.slState = .idle := by decide
theorem witness_TresetTakesSnapshot : idle.slState = .idle ∧ (3 : Nat) < 4 ∧ (4 : Nat) ≤ 4 := by decide
theorem witness_TelapsedRespondsDifference : idle.slState = .idle ∧ (3 : Nat) < 4 ∧ (4 : Nat) ≤ 255 := by decide
theorem witness_TimersAreIndependent : (0 : Nat) ≠ 3 ∧ (3 : Nat) ≠ 4 ∧ idle.slState = .idle := by decide
theorem witness_TickCountsTickEvents :
    idle.tick < 2 ^ idle.params.tickW ∧ Instr.reset ∉ [Instr.tickEv, .now] ∧
    ∃ t, run [.tickEv, .now] idle = .next t := ⟨by decide, by decide, _, rfl⟩
theorem witness_ElapsedCountsTicks :
    ∃ u t, (3 : Nat) < 4 ∧ exec (.treset 3) idle = .next u ∧ neverRestarts 3 [.tickEv, .treset 2] u = true ∧
      run ([.tickEv, .treset 2] ++ [.telapsed 3]) u = .next t :=
  ⟨_, _, by decide, rfl, by decide, rfl⟩
theorem witness_SetdutyReplacesTriple : idle.slState = .idle := by decide
theorem witness_CmpEvRunsOneSubCycle :
    pulse.pwmEn = false ∧ (∃ s : State, s.pwmEn = true ∧ s.pwmCnt < 99) ∧ ∃ s : State, s.pwmEn = true ∧ 99 ≤ s.pwmCnt :=
  ⟨by decide, ⟨{ idle with pwmCnt := 98 }, by decide⟩, ⟨{ idle with pwmCnt := 99 }, by decide⟩⟩
theorem witness_WaveformKeptByAllButSetduty :
    ∃ s t, StateInv s ∧ Waveform s ∧ (∀ r g b, Instr.cmpEv ≠ .setduty r g b) ∧ exec .cmpEv s = .next t :=
  ⟨{ idle with duty := ⟨0, 30, 100⟩, pwmCnt := 29, pwmOut := ⟨false, true, true⟩ }, _, by decide,
    fun c => by cases c <;> decide, fun _ _ _ => by simp, rfl⟩
theorem witness_WrapStartsWaveform : ∃ s t, s.pwmEn = true ∧ s.pwmCnt = 99 ∧ exec .cmpEv s = .next t :=
  ⟨{ idle with duty := ⟨0, 30, 100⟩, pwmCnt := 99 }, _, by decide, by decide, rfl⟩
theorem witness_ChannelAssertedForDutyIntervals :
    ∃ s : State, s.pwmEn = true ∧ s.pwmCnt = 99 ∧ Rgb.get s.duty .red ≤ 100 ∧ Rgb.get s.duty .blue ≤ 100 :=
  ⟨{ idle with duty := ⟨0, 30, 100⟩, pwmCnt := 99 }, by decide⟩
theorem witness_MidCycleDutyActsBeforeWrapOnlyByMatch :
    ∃ s : State, s.slState = .idle ∧ s.pwmEn = true ∧ s.pwmCnt + 79 ≤ 99 :=
  ⟨{ idle with pwmCnt := 20 }, by decide⟩
theorem witness_NothingAssertedBeforeFirstWrap :
    ∃ u t, exec .reset pulse = .next u ∧ [Instr.setduty 100 100 100, .cmpEv].count .cmpEv ≤ 99 ∧
      run [.setduty 100 100 100, .cmpEv] u = .next t := ⟨_, _, rfl, by decide, rfl⟩
theorem witness_TransactionFreezesPwm :
    ∃ t, StateInv pulse ∧ pulse.slState ≠ .idle ∧ (∀ i ∈ [Instr.cmpEv, .tickEv], isTransactionEvent i = true) ∧
      run [.cmpEv, .tickEv] pulse = .next t ∧ t.slState ≠ .idle :=
  ⟨_, by decide, by decide, by decide, rfl, by decide⟩
theorem witness_PollNotDueRespondsOne : ∃ s : State, s.slState = .idle ∧ ¬ SensorIsDue s :=
  ⟨{ idle with tick := 19 }, by decide, by unfold SensorIsDue; decide⟩
theorem witness_NotDueWritesNothing : ∃ t, exec .poll idle = .next t ∧ t.slState = .idle := ⟨_, rfl, by decide⟩
theorem witness_PollDueOpensTransaction : ∃ s : State, s.slState = .idle ∧ SensorIsDue s :=
  ⟨{ idle with tick := 20 }, by decide, by unfold SensorIsDue; decide⟩
theorem witness_StepsEnabledByStage :
    Instr.isHostOp .now = true ∧ idle.slState = .idle ∧ pulse.slState = .reqPulse ∧
    (waiting .bitWaitLow).slState ≠ .idle ∧ (waiting .bitWaitLow).slState ≠ .reqPulse := by decide
theorem witness_FirstAcknowledgmentMatch : (waiting .waitAck0).slState = .waitAck0 := by decide
theorem witness_LaterAcknowledgmentMatches :
    (waiting .waitAck1).slState = .waitAck1 ∧ (waiting .waitAck2).slState = .waitAck2 := by decide
theorem witness_SlotStartClearsBitTimer : (waiting .bitWaitHigh).slState = .bitWaitHigh := by decide
theorem witness_SlotEndStoresBit : ∃ s : State, s.slState = .bitWaitLow ∧ s.bitIdx < 39 :=
  ⟨{ waiting .bitWaitLow with bitIdx := 38, bitCnt := 51 }, by decide⟩
theorem witness_LastBitWithGoodChecksumUpdatesCache :
    ∃ (s : State) (f : Frame), s.slState = .bitWaitLow ∧ s.bitIdx = 39 ∧
      (∀ j, j < 40 → f.getLsbD j =
        if j = 0 then decide (s.params.bitThreshold < s.bitCnt.toNat) else s.frame.getLsbD j) ∧
      checksumGood f = true :=
  ⟨{ waiting .bitWaitLow with bitIdx := 39, frame := 0x019000C858, bitCnt := 51 }, 0x019000C859, by decide⟩
theorem witness_LastBitWithBadChecksumAborts :
    ∃ (s : State) (f : Frame), s.slState = .bitWaitLow ∧ s.bitIdx = 39 ∧
      (∀ j, j < 40 → f.getLsbD j =
        if j = 0 then decide (s.params.bitThreshold < s.bitCnt.toNat) else s.frame.getLsbD j) ∧
      checksumGood f = false :=
  ⟨{ waiting .bitWaitLow with bitIdx := 39, frame := 0x019000C858, bitCnt := 50 }, 0x019000C858, by decide⟩
theorem witness_SampleMissCounts :
    ((SlState.waitAck0, true) ∈ [(SlState.waitAck0, true), (.waitAck1, false), (.waitAck2, true),
      (.bitWaitHigh, false), (.bitWaitLow, true)]) ∧
    ∃ s : State, s.slState = .waitAck0 ∧ s.toCnt + 1 ≠ s.params.sensTimeout :=
  ⟨by decide, { waiting .waitAck0 with toCnt := 2 }, by decide⟩
theorem witness_SampleTimeoutAborts :
    ((SlState.bitWaitLow, true, 6#32) ∈ [(SlState.waitAck0, true, 2#32), (.waitAck1, false, 3#32),
      (.waitAck2, true, 4#32), (.bitWaitHigh, false, 5#32), (.bitWaitLow, true, 6#32)]) ∧
    ∃ s : State, s.slState = .bitWaitLow ∧ s.toCnt + 1 = s.params.sensTimeout :=
  ⟨by decide, { waiting .bitWaitLow with toCnt := 3 }, by decide⟩
/-- An opening, a step inside a transaction, an end, and a `POLL` that is not due. -/
theorem witness_PwmGateFollowsTransaction :
    (∃ s t, StateInv s ∧ exec .poll s = .next t ∧ s.slState = .idle ∧ t.slState ≠ .idle) ∧
    (∃ t, StateInv pulse ∧ exec .tickEv pulse = .next t ∧ pulse.slState ≠ .idle ∧ t.slState ≠ .idle) ∧
    (∃ s t, StateInv s ∧ exec (.sample true) s = .next t ∧ s.slState ≠ .idle ∧ t.slState = .idle) ∧
    ∃ t, StateInv idle ∧ exec .poll idle = .next t ∧ t.slState = .idle :=
  ⟨⟨{ idle with tick := 20 }, _, by decide, rfl, by decide, by decide⟩,
   ⟨_, by decide, rfl, by decide, by decide⟩,
   ⟨{ waiting .waitAck0 with toCnt := 3 }, _, by decide, rfl, by decide, by decide⟩,
   ⟨_, by decide, rfl, by decide⟩⟩
theorem witness_OnlySampleOrResetEndsTransaction :
    (∃ s t, StateInv s ∧ s.slState ≠ .idle ∧ exec (.sample true) s = .next t ∧ t.slState = .idle) ∧
    ∃ t, StateInv pulse ∧ pulse.slState ≠ .idle ∧ exec .bitEv pulse = .next t ∧ t.slState ≠ .idle :=
  ⟨⟨{ waiting .waitAck0 with toCnt := 3 }, _, by decide, by decide, rfl, by decide⟩,
   ⟨_, by decide, by decide, rfl, by decide⟩⟩
/-- Seventeen ticks and eighteen: the last count of the request pulse and its end. -/
theorem witness_RequestPulseLastsReqLowTicks :
    (pulse.slState = .reqPulse ∧ pulse.reqCnt = 0 ∧ pulse.lineDrv = true ∧ 1 ≤ pulse.params.reqLow) ∧
    (∀ n, ∀ i ∈ List.replicate n Instr.tickEv, i = .tickEv ∨ i = .cmpEv ∨ i = .bitEv) ∧
    ((∃ t, run (List.replicate 17 .tickEv) pulse = .next t) ∧ tickCount (List.replicate 17 .tickEv) < 18) ∧
    (∃ t, run (List.replicate 18 .tickEv) pulse = .next t) ∧ 18 ≤ tickCount (List.replicate 18 .tickEv) :=
  ⟨by decide, fun _ _ h => .inl (List.eq_of_mem_replicate h), ⟨⟨_, rfl⟩, by decide⟩, ⟨_, rfl⟩, by decide⟩
theorem witness_TransactionIsBounded :
    ∃ t, StateInv pulse ∧ pulse.slState = .reqPulse ∧ pulse.reqCnt = 0 ∧ pulse.rsp = none ∧
      (∀ i ∈ [Instr.bitEv, .tickEv], isTransactionEvent i = true) ∧ run [.bitEv, .tickEv] pulse = .next t :=
  ⟨_, by decide, by decide, by decide, by decide, by decide, rfl⟩
/-- These slot lengths are received as the frame they spell. -/
theorem slotLengths_spell (f : Frame) (i : Nat) (h : i < (slotLengths f).length) :
    f.getLsbD (39 - i) = decide (idle.params.bitThreshold < (slotLengths f)[i] % 256) := by
  have hb : idle.params.bitThreshold = 50 := rfl
  cases hf : f.getLsbD (39 - i) <;> simp [slotLengths, hf, hb]
/-- The hypotheses, and for each branch a frame that forty slot lengths spell: S4 (good), P5 with the flag set (good),
P5 with a wrong last byte (bad), the last with an error count on either side of `MAX_ERRORS`. -/
theorem witness_TransactionReceivesForty :
    (∃ s : State, StateInv s ∧ s.slState = .idle ∧ SensorIsDue s ∧ (slotLengths 0x019000C859).length = 40) ∧
    (checksumGood 0x019000C859 = true ∧ tempFlag 0x019000C859 = false) ∧
    (checksumGood 0x028B810513 = true ∧ tempFlag 0x028B810513 = true) ∧
    checksumGood 0x028B010500 = false ∧
    (satInc 0).toNat ≤ idle.params.maxErrors ∧ idle.params.maxErrors < (satInc 1).toNat :=
  ⟨⟨{ idle with tick := 20 }, by decide, by decide, by unfold SensorIsDue; decide, by decide⟩, by decide⟩
/-- With an error count on either side of `MAX_ERRORS`. -/
theorem witness_UnansweredTransactionTimesOut :
    (∃ s : State, StateInv s ∧ s.slState = .idle ∧ SensorIsDue s ∧ (satInc s.err).toNat ≤ s.params.maxErrors) ∧
    ∃ s : State, StateInv s ∧ s.slState = .idle ∧ SensorIsDue s ∧ s.params.maxErrors < (satInc s.err).toNat :=
  ⟨⟨{ idle with tick := 20 }, by decide, by decide, by unfold SensorIsDue; decide, by decide⟩,
   ⟨{ idle with tick := 20, err := 1 }, by decide, by decide, by unfold SensorIsDue; decide, by decide⟩⟩
theorem witness_ReadingsRespondValueAndFlag : idle.slState = .idle := by decide
theorem witness_StepKeepsInvariant :
    ∃ s t, StateInv s ∧ step s = .next t :=
  ⟨{ pulse with reqCnt := 17, inputs := [.irqTick] }, _, by decide, rfl⟩
theorem witness_AccessMatrix : ∃ t, Instr.tickEv ≠ .reset ∧ exec .tickEv pulse = .next t := ⟨_, by decide, rfl⟩
theorem witness_ResponsesComeFromAcceptedOperations :
    (∃ t, exec .gethum idle = .next t ∧ Instr.isHostOp .gethum = true) ∧
    ∃ s t, exec (.sample true) s = .next t ∧ Instr.isHostOp (.sample true) = false ∧ t.rsp ≠ none :=
  ⟨⟨_, rfl, by decide⟩, ⟨{ waiting .waitAck0 with toCnt := 3 }, _, rfl, by decide, by decide⟩⟩
theorem witness_EventsCommute : Instr.tickEv ∈ [Instr.tickEv, .cmpEv, .bitEv] := by decide
theorem witness_EventsCommuteWithHostOperations :
    Instr.isHostOp .poll = true ∧ idle.slState = .idle ∧ ¬ (Instr.poll = .poll ∧ SensorIsDue idle) ∧
    (∀ r g b, Instr.poll ≠ .setduty r g b) :=
  ⟨by decide, by decide, by unfold SensorIsDue; decide, fun _ _ _ => by simp⟩
theorem witness_RepeatedWritesAreIdempotent :
    (∃ t, exec (.treset 3) idle = .next t) ∧ ∃ t, exec (.setduty 255 0 100) idle = .next t := ⟨⟨_, rfl⟩, ⟨_, rfl⟩⟩
theorem witness_WorkingRegistersAreUnobservable :
    ∃ u : State, u ≠ idle ∧ observable idle = observable u :=
  ⟨{ idle with bitCnt := 70, bitIdx := 39, frame := 0x019000C859 }, by decide, by decide⟩

end Sys2Proof.Tests
end

section
/-! The family 40_tickclock_timerbank: `TRESET`, `TELAPSED` and the independence of the timers (R112, R113, R120). -/

namespace Sys2Proof.Machine

/-! ## What another timer's snapshot keeps -/

/-- Writing one snapshot, or none for an id that names no timer, leaves what any other id reads. -/
theorem readSnap_writeSnap_of_ne (s : State) {i j : Nat} (v : Nat) (hij : i ≠ j) :
    readSnap (writeSnap s i v) j = readSnap s j := by
  by_cases hi : i < Config.nTimers
  · rw [readSnap_writeSnap s i j v hi, if_neg hij]
  · rw [writeSnap_of_invalid s i v hi]

theorem elapsed_writeSnap_of_ne (s : State) {i j : Nat} (v : Nat) (hij : i ≠ j) :
    elapsed (writeSnap s i v) j = elapsed s j := by
  simp only [elapsed, writeSnap_params, writeSnap_tick, readSnap_writeSnap_of_ne s v hij]

/-- `elapsed` does not read the response port. -/
theorem elapsed_respond (w : Word) (s : State) (id : Nat) : elapsed (respond w s) id = elapsed s id := rfl

/-! ## The two operations in `Idle` -/

theorem exec_treset_of_idle (s : State) (id : Nat) (hidle : s.slState = .idle) :
    exec (.treset id) s = .next (respond 0 (writeSnap s id s.tick)) := by
  rw [exec_treset, hostOp_of_idle s _ hidle]

theorem exec_telapsed_of_idle (s : State) (id : Nat) (hidle : s.slState = .idle) :
    exec (.telapsed id) s =
      .next (respond (if id < Config.nTimers then zext32 (elapsed s id) else 0) s) := by
  rw [exec_telapsed, hostOp_of_idle s _ hidle]

/-! ## The obligations -/

/-- Settles O19: the second `TELAPSED` computes its word from `TICK` and `SNAP[j]`, and `TRESET i` writes neither. -/
theorem timersAreIndependent : Obligations.TimersAreIndependent := by
  unfold Obligations.TimersAreIndependent
  intro s i j hij hidle
  have hidle' : (respond 0 (writeSnap s i s.tick)).slState = .idle := by
    rw [respond_slState, writeSnap_slState, hidle]
  refine ⟨_, _, _, exec_treset_of_idle s i hidle, exec_telapsed_of_idle _ j hidle',
    exec_telapsed_of_idle s j hidle, ?_⟩
  rw [elapsed_respond, elapsed_writeSnap_of_ne s s.tick hij]
  rfl

/-- Settles O17: `writeSnap` writes the snapshot of a valid id and is the identity for any other. -/
theorem tresetTakesSnapshot : Obligations.TresetTakesSnapshot := by
  unfold Obligations.TresetTakesSnapshot
  intro s id hidle
  rw [exec_treset_of_idle s id hidle]
  constructor
  · intro hvalid
    rw [writeSnap_of_valid s id s.tick hvalid]
    rfl
  · intro hinvalid
    rw [writeSnap_of_invalid s id s.tick (Nat.not_lt.mpr hinvalid)]
    rfl

/-- Settles O18: for a valid id `sub_W` is the difference of integers modulo `2^TICK_W` (`elapsed_eq_ticksSince`). -/
theorem telapsedRespondsDifference : Obligations.TelapsedRespondsDifference := by
  unfold Obligations.TelapsedRespondsDifference
  intro s id hidle
  rw [exec_telapsed_of_idle s id hidle]
  constructor
  · intro hvalid
    rw [if_pos hvalid, elapsed_eq_ticksSince s ⟨id, hvalid⟩]
    rfl
  · intro hinvalid
    rw [if_neg (Nat.not_lt.mpr hinvalid)]
    rfl

end Sys2Proof.Machine
end

section
/-! The family 42_sensorlink: the matches of the later wait stages (R164 to R167) and the PWM gate (R156). -/

namespace Sys2Proof.Machine

/-! ## A match -/

/-- A `SAMPLE` of the awaited level completes with the stage's match rule (R161). -/
theorem exec_sample_of_awaited {s : State} {lv : Level} {code : ResultCode}
    (hwait : SlState.wait s.slState = some (lv, code)) :
    exec (.sample lv) s = .next (sampleMatch (noResponse s)) := by
  simp only [exec, execSample, hwait, if_true]

theorem sampleMatch_of_waitAck1 (s : State) (hstage : s.slState = .waitAck1) :
    sampleMatch s = enterStage .waitAck2 s := by
  simp only [sampleMatch, hstage]

theorem sampleMatch_of_waitAck2 (s : State) (hstage : s.slState = .waitAck2) :
    sampleMatch s = { enterStage .bitWaitHigh s with bitIdx := 0 } := by
  simp only [sampleMatch, hstage]

theorem sampleMatch_of_bitWaitHigh (s : State) (hstage : s.slState = .bitWaitHigh) :
    sampleMatch s = { enterStage .bitWaitLow s with bitCnt := 0 } := by
  simp only [sampleMatch, hstage]

/-- The match at the end of a slot other than the last goes on to the next slot (R167). -/
theorem sampleMatch_of_innerSlot (s : State) (hstage : s.slState = .bitWaitLow) (hinner : s.bitIdx < 39) :
    sampleMatch s = { enterStage .bitWaitHigh s with
      frame := storeBit s.frame s.bitIdx (slotBit s.params s.bitCnt), bitIdx := s.bitIdx + 1 } := by
  simp only [sampleMatch, hstage, slotEnd, if_pos hinner]

/-! ## What a step does to the PWM gate -/

/-- The gate is left alone: `PWM_EN` is as it was, and a transaction is in progress after the step exactly if one
was before. -/
def GateKept (s t : State) : Prop := t.pwmEn = s.pwmEn ∧ (t.slState = .idle ↔ s.slState = .idle)

/-- No transaction is in progress and the gate is on. -/
def GateOn (t : State) : Prop := t.pwmEn = true ∧ t.slState = .idle

/-- A transaction is in progress and the gate is off. -/
def GateOff (t : State) : Prop := t.pwmEn = false ∧ t.slState ≠ .idle

theorem GateKept.of_busy {s t : State} (hs : s.slState ≠ .idle) (ht : t.slState ≠ .idle)
    (hen : t.pwmEn = s.pwmEn) : GateKept s t :=
  ⟨hen, iff_of_false ht hs⟩

/-- Completion turns the gate on, whether the checksum is good or bad (R169). -/
theorem completion_gateOn (s : State) : GateOn (completion s) := by
  rcases completion_cases s with ⟨-, hgood⟩ | ⟨-, hbad⟩
  · rw [hgood]; exact ⟨endSuccess_pwmEn _, endSuccess_slState _⟩
  · rw [hbad]; exact ⟨abort_pwmEn _ _, abort_slState _ _⟩

/-- A host operation leaves the gate alone, except for the `POLL` that opens a transaction, which turns it off. -/
theorem exec_hostOp_gate {i : Instr} {s t : State} (hhost : i.isHostOp = true) (hnext : exec i s = .next t) :
    GateKept s t ∨ (i = .poll ∧ GateOff t) := by
  obtain ⟨-, ⟨_, rfl, -⟩ | ⟨id, -, rfl⟩ | ⟨_, _, _, -, rfl⟩ | ⟨hpoll, -, rfl⟩ | ⟨-, -, rfl⟩⟩ :=
    exec_hostOp_cases hhost hnext
  · exact .inl ⟨rfl, .rfl⟩
  · left
    exact ⟨writeSnap_pwmEn s id s.tick, by rw [respond_slState, writeSnap_slState]⟩
  · exact .inl ⟨rfl, .rfl⟩
  · exact .inr ⟨hpoll, rfl, nofun⟩
  · exact .inl ⟨rfl, .rfl⟩

/-- A `TICK_EV` leaves the gate alone: the release of the line leads from one stage of a transaction to another. -/
theorem exec_tickEv_gate {s t : State} (hnext : exec .tickEv s = .next t) : GateKept s t := by
  obtain ⟨-, rfl⟩ | ⟨-, -, rfl⟩ | ⟨hpulse, -, rfl⟩ := execTickEv_cases hnext
  · exact ⟨rfl, .rfl⟩
  · exact ⟨rfl, .rfl⟩
  · exact .of_busy (by rw [hpulse]; nofun) nofun rfl

/-- A `CMP_EV` leaves the gate alone: a sub-cycle reads `PWM_EN` and does not write it. -/
theorem exec_cmpEv_gate {s t : State} (hnext : exec .cmpEv s = .next t) : GateKept s t := by
  obtain ⟨-, rfl⟩ | ⟨-, -, rfl⟩ | ⟨-, -, rfl⟩ := execCmpEv_cases hnext <;> exact ⟨rfl, .rfl⟩

/-- A `SAMPLE` leaves the gate alone while it only moves between wait stages or counts a miss; at the end of the
last slot and at an abort the gate is turned on. -/
theorem exec_sample_gate {lv : Level} {s t : State} (hnext : exec (.sample lv) s = .next t) :
    GateKept s t ∨ GateOn t := by
  obtain ⟨hbusy, -, ⟨-, rfl⟩ | ⟨-, rfl⟩ | ⟨-, rfl⟩ | ⟨-, rfl⟩ | ⟨-, -, rfl⟩ | ⟨-, -, rfl⟩ | ⟨-, rfl⟩ |
    ⟨-, code, -, -, rfl⟩⟩ := execSample_stage_cases hnext
  · exact .inl (.of_busy hbusy nofun rfl)
  · exact .inl (.of_busy hbusy nofun rfl)
  · exact .inl (.of_busy hbusy nofun rfl)
  · exact .inl (.of_busy hbusy nofun rfl)
  · exact .inl (.of_busy hbusy nofun rfl)
  · exact .inr (completion_gateOn _)
  · exact .inl ⟨rfl, .rfl⟩
  · exact .inr ⟨abort_pwmEn _ _, abort_slState _ _⟩

/-- Every step leaves the gate alone, is the `POLL` that turns it off, or is an event that turns it on (R156). -/
theorem exec_gate_cases {i : Instr} {s t : State} (hnext : exec i s = .next t) :
    GateKept s t ∨ (i = .poll ∧ GateOff t) ∨ (i ≠ .poll ∧ GateOn t) := by
  by_cases hhost : i.isHostOp = true
  · exact (exec_hostOp_gate hhost hnext).imp_right .inl
  · cases i with
    | now | treset | telapsed | setduty | poll | gethum | gettemp | geterr => exact absurd rfl hhost
    | reset =>
      obtain rfl := execReset_eq hnext
      exact .inr (.inr ⟨nofun, rfl, rfl⟩)
    | tickEv => exact .inl (exec_tickEv_gate hnext)
    | cmpEv => exact .inl (exec_cmpEv_gate hnext)
    | bitEv =>
      obtain rfl := execBitEv_eq hnext
      exact .inl ⟨rfl, .rfl⟩
    | sample lv => exact (exec_sample_gate hnext).imp_right fun hon => .inr ⟨nofun, hon⟩

/-! ## The obligations -/

/-- Settles O43: a step either leaves the gate alone, and then the invariant has it off inside a transaction, or
switches it together with the stage. -/
theorem pwmGateFollowsTransaction : Obligations.PwmGateFollowsTransaction := by
  unfold Obligations.PwmGateFollowsTransaction
  intro i s t hinv hnext
  obtain ⟨-, -, -, ⟨hgate, -⟩, -, -⟩ := hinv
  obtain ⟨hen, hstage⟩ | ⟨hpoll, hoff, hbusy⟩ | ⟨hnot, hon, hidle⟩ := exec_gate_cases hnext
  · exact ⟨fun hs ht => absurd (hstage.2 hs) ht, fun hs _ => hen.trans (hgate.2 hs),
      fun hs ht => absurd (hstage.1 ht) hs, fun _ _ => hen⟩
  · exact ⟨fun _ _ => ⟨hpoll, hoff⟩, fun _ _ => hoff, fun _ ht => absurd ht hbusy, fun _ ht => absurd ht hbusy⟩
  · exact ⟨fun _ ht => absurd hidle ht, fun _ ht => absurd hidle ht, fun _ _ => hon, fun hi => absurd hi hnot⟩

/-- Settles O36: each stage awaits the level sampled, and its match rule is an entry to the next stage. -/
theorem laterAcknowledgmentMatches : Obligations.LaterAcknowledgmentMatches := by
  unfold Obligations.LaterAcknowledgmentMatches
  intro s
  constructor
  · intro hstage
    refine ⟨_, exec_sample_of_awaited (by rw [hstage]; rfl), ?_⟩
    rw [sampleMatch_of_waitAck1 (noResponse s) hstage]
    rfl
  · intro hstage
    refine ⟨_, exec_sample_of_awaited (by rw [hstage]; rfl), ?_⟩
    rw [sampleMatch_of_waitAck2 (noResponse s) hstage]
    rfl

/-- Settles O37: the match rule of `BitWaitHigh` clears the bit timer and enters `BitWaitLow`. -/
theorem slotStartClearsBitTimer : Obligations.SlotStartClearsBitTimer := by
  unfold Obligations.SlotStartClearsBitTimer
  intro s hstage
  refine ⟨_, exec_sample_of_awaited (by rw [hstage]; rfl), ?_⟩
  rw [sampleMatch_of_bitWaitHigh (noResponse s) hstage]
  rfl

/-- Settles O38: the frame after the step is `storeBit` of the slot's bit at `BIT_IDX`, which changes bit
`39 - BIT_IDX` alone. -/
theorem slotEndStoresBit : Obligations.SlotEndStoresBit := by
  unfold Obligations.SlotEndStoresBit
  intro s hstage hinner
  refine ⟨_, exec_sample_of_awaited (by rw [hstage]; rfl), ?_⟩
  rw [sampleMatch_of_innerSlot (noResponse s) hstage hinner]
  constructor
  · intro j hj
    exact storeBit_getLsbD s.frame s.bitIdx (slotBit s.params s.bitCnt) j (by omega) hj
  · rfl

end Sys2Proof.Machine
end

section
/-! The family 43_resultcache: a `POLL` that is not due writes nothing (R199). -/

namespace Sys2Proof.Machine

/-- A response is written to the response port alone. -/
@[simp] theorem silent_respond (w : Word) (s : State) : State.silent (respond w s) = State.silent s := rfl

/-! ## The obligations -/

/-- Settles O31: of `POLL`'s two cases, the one that opens a transaction does not end in `Idle`, and the other one
only responds. -/
theorem notDueWritesNothing : Obligations.NotDueWritesNothing := by
  unfold Obligations.NotDueWritesNothing
  intro s t hnext hidle
  obtain ⟨-, ⟨-, rfl⟩ | ⟨-, rfl⟩⟩ := execPoll_cases hnext
  · exact absurd hidle nofun
  · exact silent_respond 1 s

end Sys2Proof.Machine
end

section
/-! The family 30_encoding: the decoder and the encoder are inverse to each other, and which command words the
decoder refuses (R81, R83 to R90, R99, R100, R106). -/

namespace Sys2Proof

/-! ## Decoding the words of the encoder -/

/-- The decoder reads every well-formed step back from its encoding: the fields of `cmdWord` are its arguments, and
a byte operand below 256 is its field. -/
theorem decode_encode {i : Instr} (hwf : i.wf = true) : decode (encode i) = .ok i := by
  cases i with
  | now | poll | gethum | gettemp | geterr => simp [encode, decode, decodeCmd, decodeNoOperand]
  | treset id | telapsed id =>
    have hid : id < 256 := of_decide_eq_true hwf
    simp [encode, decode, decodeCmd, decodeTimerId, hid]
  | setduty r g b =>
    simp only [Instr.wf, fitsByte, Bool.and_eq_true, decide_eq_true_eq] at hwf
    obtain ⟨⟨hr, hg⟩, hb⟩ := hwf
    simp [encode, decode, decodeCmd, hr, hg, hb]
  | reset | tickEv | cmpEv | bitEv | sample lv => rfl

/-! ## What a word that decodes looks like -/

theorem decodeNoOperand_eq_ok_iff (w : Word) (i j : Instr) :
    decodeNoOperand w i = .ok j ↔ (fieldA w = 0 ∧ fieldB w = 0 ∧ fieldC w = 0) ∧ i = j := by
  unfold decodeNoOperand
  split
  · next hfields => simp [hfields]
  · next hfields => exact iff_of_false nofun fun hok => hfields hok.1

theorem decodeTimerId_eq_ok_iff (w : Word) (mk : Nat → Instr) (j : Instr) :
    decodeTimerId w mk = .ok j ↔ (fieldA w = 0 ∧ fieldB w = 0) ∧ mk (fieldC w).toNat = j := by
  unfold decodeTimerId
  split
  · next hfields => simp [hfields]
  · next hfields => exact iff_of_false nofun fun hok => hfields hok.1

/-- A word with `Z = 0` and operation code `op` is the word made from `op` and its operand bytes. -/
theorem cmdWord_of_op {w : Word} {op : BitVec 4} (hz : fieldZ w = 0) (hop : (fieldOp w).toNat = op.toNat) :
    cmdWord op (fieldA w).toNat (fieldB w).toNat (fieldC w).toNat = w := by
  rw [← BitVec.eq_of_toNat_eq hop]
  exact cmdWord_of_fields w hz

/-- With no operand the step's word is fixed by its operation code. -/
theorem cmdWord_of_decodeNoOperand {w : Word} {op : BitVec 4} {i j : Instr} (hz : fieldZ w = 0)
    (hop : (fieldOp w).toNat = op.toNat) (hok : decodeNoOperand w i = .ok j) :
    i = j ∧ cmdWord op 0 0 0 = w := by
  obtain ⟨⟨ha, hb, hc⟩, hij⟩ := (decodeNoOperand_eq_ok_iff w i j).1 hok
  have hw := cmdWord_of_op hz hop
  rw [ha, hb, hc] at hw
  exact ⟨hij, hw⟩

/-- With a timer id the step's word is fixed by its operation code and the id. -/
theorem cmdWord_of_decodeTimerId {w : Word} {op : BitVec 4} {mk : Nat → Instr} {j : Instr} (hz : fieldZ w = 0)
    (hop : (fieldOp w).toNat = op.toNat) (hok : decodeTimerId w mk = .ok j) :
    ∃ id, fitsByte id = true ∧ mk id = j ∧ cmdWord op 0 0 id = w := by
  obtain ⟨⟨ha, hb⟩, hj⟩ := (decodeTimerId_eq_ok_iff w mk j).1 hok
  have hw := cmdWord_of_op hz hop
  rw [ha, hb] at hw
  exact ⟨_, decide_eq_true (fieldC w).isLt, hj, hw⟩

/-- A command word that decodes is the encoding of the well-formed step it decodes to. -/
theorem encode_of_decodeCmd {w : Word} {i : Instr} (hok : decodeCmd w = .ok i) :
    i.wf = true ∧ encode i = .cmd w := by
  unfold decodeCmd at hok
  split at hok
  · cases hok
  · next hz =>
    have hz : fieldZ w = 0 := not_not.mp hz
    split at hok
    · next hop => obtain ⟨rfl, hw⟩ := cmdWord_of_decodeNoOperand (op := 0) hz hop hok; exact ⟨rfl, congrArg _ hw⟩
    · next hop => obtain ⟨id, hid, rfl, hw⟩ := cmdWord_of_decodeTimerId (op := 1) hz hop hok; exact ⟨hid, congrArg _ hw⟩
    · next hop => obtain ⟨id, hid, rfl, hw⟩ := cmdWord_of_decodeTimerId (op := 2) hz hop hok; exact ⟨hid, congrArg _ hw⟩
    · next hop =>
      cases hok
      refine ⟨?_, congrArg _ (cmdWord_of_op (op := 3) hz hop)⟩
      have hbyte : ∀ x : Byte, fitsByte x.toNat = true := fun x => decide_eq_true x.isLt
      simp only [Instr.wf, hbyte, Bool.and_self]
    · next hop => obtain ⟨rfl, hw⟩ := cmdWord_of_decodeNoOperand (op := 4) hz hop hok; exact ⟨rfl, congrArg _ hw⟩
    · next hop => obtain ⟨rfl, hw⟩ := cmdWord_of_decodeNoOperand (op := 5) hz hop hok; exact ⟨rfl, congrArg _ hw⟩
    · next hop => obtain ⟨rfl, hw⟩ := cmdWord_of_decodeNoOperand (op := 6) hz hop hok; exact ⟨rfl, congrArg _ hw⟩
    · next hop => obtain ⟨rfl, hw⟩ := cmdWord_of_decodeNoOperand (op := 7) hz hop hok; exact ⟨rfl, congrArg _ hw⟩
    · cases hok

/-- Decoding and encoding are inverse to each other on the well-formed steps. -/
theorem decode_eq_ok_iff (x : Stimulus) (i : Instr) : decode x = .ok i ↔ i.wf = true ∧ encode i = x := by
  constructor
  · intro hok
    cases x with
    | cmd w => exact encode_of_decodeCmd hok
    | rst | irqTick | irqCmp | bitClk | line lv => cases hok; exact ⟨rfl, rfl⟩
  · rintro ⟨hwf, rfl⟩
    exact decode_encode hwf

/-! ## Masks as numbers -/

/-- A mask that drops the low `k` bits, on numbers. -/
theorem toNat_and_highMask (w : Word) (k : Nat) :
    (w &&& (BitVec.allOnes 32 <<< k)).toNat = w.toNat / 2 ^ k * 2 ^ k := by
  have hmask : w &&& (BitVec.allOnes 32 <<< k) = (w >>> k) <<< k := by
    ext j hj
    by_cases hk : j < k
    · simp [hk]
    · have hkj : k + (j - k) = j := by omega
      simp only [BitVec.getElem_and, BitVec.getElem_shiftLeft, BitVec.getElem_ushiftRight, BitVec.getElem_allOnes, hk,
        hkj, BitVec.getLsbD_eq_getElem hj, decide_false, Bool.not_false, Bool.and_true, Bool.true_and]
  have hlt : w.toNat / 2 ^ k * 2 ^ k < 2 ^ 32 := (Nat.div_mul_le_self _ _).trans_lt w.isLt
  rw [hmask, BitVec.toNat_shiftLeft, BitVec.toNat_ushiftRight, Nat.shiftLeft_eq, Nat.shiftRight_eq_div_pow,
    Nat.mod_eq_of_lt hlt]

/-- The mask of one operand byte, on numbers. -/
theorem toNat_and_byteMask (w : Word) : (w &&& 0xFF#32).toNat = w.toNat % 256 := by
  rw [BitVec.toNat_and]
  exact Nat.and_two_pow_sub_one_eq_mod w.toNat 8

theorem and_timerMask_eq_iff (w v : Word) : w &&& 0xFFFFFF00#32 = v ↔ w.toNat / 2 ^ 8 * 2 ^ 8 = v.toNat := by
  rw [← BitVec.toNat_inj, show (0xFFFFFF00#32) = BitVec.allOnes 32 <<< 8 by decide, toNat_and_highMask]

theorem and_dutyMask_eq_iff (w v : Word) : w &&& 0xFF000000#32 = v ↔ w.toNat / 2 ^ 24 * 2 ^ 24 = v.toNat := by
  rw [← BitVec.toNat_inj, show (0xFF000000#32) = BitVec.allOnes 32 <<< 24 by decide, toNat_and_highMask]

theorem and_fullMask_eq_iff (w v : Word) : w &&& 0xFFFFFFFF#32 = v ↔ v = w := by
  rw [show (0xFFFFFFFF#32) = BitVec.allOnes 32 by decide, BitVec.and_allOnes, eq_comm]

/-! ## The rows of the table -/

/-- A step without an operand: its word is the only one. -/
theorem decode_cmd_iff_of_noOperand {i : Instr} {v : Word} (henc : encode i = .cmd v) (hwf : i.wf = true) (w : Word) :
    decode (.cmd w) = .ok i ↔ w &&& 0xFFFFFFFF#32 = v := by
  rw [decode_eq_ok_iff, henc, and_fullMask_eq_iff, Stimulus.cmd.injEq]
  exact and_iff_right hwf

/-- A step with a timer id: its word under the mask of the upper three bytes, and the id below them. -/
theorem decode_cmd_iff_of_timerId {mk : Nat → Instr} {op : BitVec 4} {v : Word}
    (henc : ∀ id, encode (mk id) = .cmd (cmdWord op 0 0 id)) (hwf : ∀ id, (mk id).wf = fitsByte id)
    (hv : v.toNat = op.toNat * 2 ^ 28) (w : Word) (id : Nat) :
    decode (.cmd w) = .ok (mk id) ↔ w &&& 0xFFFFFF00#32 = v ∧ id = (w &&& 0xFF#32).toNat := by
  rw [decode_eq_ok_iff, henc, hwf, and_timerMask_eq_iff, toNat_and_byteMask, Stimulus.cmd.injEq, ← BitVec.toNat_inj,
    cmdWord_toNat, hv, fitsByte, decide_eq_true_eq]
  omega

/-- `SETDUTY`: its word under the mask of the first byte, and the three duties below it. -/
theorem decode_cmd_iff_of_setduty (w : Word) (r g b : Nat) :
    decode (.cmd w) = .ok (.setduty r g b) ↔
      w &&& 0xFF000000#32 = 0x30000000#32 ∧ r = ((w >>> 16) &&& 0xFF#32).toNat ∧
        g = ((w >>> 8) &&& 0xFF#32).toNat ∧ b = (w &&& 0xFF#32).toNat := by
  have hwf : (Instr.setduty r g b).wf = true ↔ (r < 256 ∧ g < 256) ∧ b < 256 := by
    simp only [Instr.wf, fitsByte, Bool.and_eq_true, decide_eq_true_eq]
  have henc : encode (.setduty r g b) = .cmd (cmdWord 3 r g b) := rfl
  rw [decode_eq_ok_iff, henc, hwf, and_dutyMask_eq_iff, toNat_and_byteMask, toNat_and_byteMask, toNat_and_byteMask,
    BitVec.toNat_ushiftRight, BitVec.toNat_ushiftRight, Nat.shiftRight_eq_div_pow, Nat.shiftRight_eq_div_pow,
    Stimulus.cmd.injEq, ← BitVec.toNat_inj, cmdWord_toNat]
  have h3 : (3 : BitVec 4).toNat = 3 := rfl
  have hv : (0x30000000#32).toNat = 3 * 2 ^ 28 := rfl
  rw [h3, hv]
  omega

/-! ## The reserved words -/

theorem decodeNoOperand_error_iff (w : Word) (i : Instr) :
    (∃ why, decodeNoOperand w i = .error why) ↔ w.extractLsb' 0 24 ≠ 0 := by
  have hlow : w.extractLsb' 0 24 = 0 ↔ fieldA w = 0 ∧ fieldB w = 0 ∧ fieldC w = 0 := by
    simp only [← BitVec.toNat_inj, fieldA_toNat, fieldB_toNat, fieldC_toNat, BitVec.extractLsb'_toNat]
    simp only [Nat.shiftRight_eq_div_pow, BitVec.ofNat_eq_ofNat, BitVec.toNat_ofNat]
    omega
  unfold decodeNoOperand
  rw [ne_eq, hlow]
  split
  · next hfields => exact iff_of_false nofun (not_not.2 hfields)
  · next hfields => exact iff_of_true ⟨_, rfl⟩ hfields

theorem decodeTimerId_error_iff (w : Word) (mk : Nat → Instr) :
    (∃ why, decodeTimerId w mk = .error why) ↔ w.extractLsb' 8 16 ≠ 0 := by
  have hlow : w.extractLsb' 8 16 = 0 ↔ fieldA w = 0 ∧ fieldB w = 0 := by
    simp only [← BitVec.toNat_inj, fieldA_toNat, fieldB_toNat, BitVec.extractLsb'_toNat]
    simp only [Nat.shiftRight_eq_div_pow, BitVec.ofNat_eq_ofNat, BitVec.toNat_ofNat]
    omega
  unfold decodeTimerId
  rw [ne_eq, hlow]
  split
  · next hfields => exact iff_of_false nofun (not_not.2 hfields)
  · next hfields => exact iff_of_true ⟨_, rfl⟩ hfields

/-- With `Z = 0` the decoder's answer depends on the operation code and the bytes that must be 0. -/
theorem decodeCmd_error_iff_of_op (w : Word) (hz : fieldZ w = 0) :
    (∃ why, decodeCmd w = .error why) ↔
      8 ≤ (fieldOp w).toNat ∨
      ((fieldOp w).toNat ∈ [0, 4, 5, 6, 7] ∧ w.extractLsb' 0 24 ≠ 0) ∨
      ((fieldOp w).toNat ∈ [1, 2] ∧ w.extractLsb' 8 16 ≠ 0) := by
  unfold decodeCmd
  rw [if_neg (not_not.2 hz)]
  split
  · next hop => simp [hop, decodeNoOperand_error_iff]
  · next hop => simp [hop, decodeTimerId_error_iff]
  · next hop => simp [hop, decodeTimerId_error_iff]
  · next hop => simp [hop]
  · next hop => simp [hop, decodeNoOperand_error_iff]
  · next hop => simp [hop, decodeNoOperand_error_iff]
  · next hop => simp [hop, decodeNoOperand_error_iff]
  · next hop => simp [hop, decodeNoOperand_error_iff]
  · exact iff_of_true ⟨_, rfl⟩ (.inl (by simp only [imp_false] at *; omega))

/-! ## The obligations -/

/-- Settles O1: `cmdWord` keeps the operation code and the operand bytes, and the strobes name their steps. -/
theorem decodeOfEncodeIsIdentity : Obligations.DecodeOfEncodeIsIdentity := by
  unfold Obligations.DecodeOfEncodeIsIdentity
  intro i hwf
  exact decode_encode hwf

/-- Settles O2: a word with `Z = 0` is the word made from its fields, and the bytes that a row does not read are 0. -/
theorem decodedStimulusReencodes : Obligations.DecodedStimulusReencodes := by
  unfold Obligations.DecodedStimulusReencodes
  intro x i hok
  exact (decode_eq_ok_iff x i).1 hok

/-- Settles O3: a word with `Z` not 0 is refused at once, another by its operation code and operand bytes. -/
theorem reservedWordsAreThoseOfTheRule : Obligations.ReservedWordsAreThoseOfTheRule := by
  unfold Obligations.ReservedWordsAreThoseOfTheRule
  intro w
  show (∃ why, decodeCmd w = .error why) ↔ fieldZ w ≠ 0 ∨ _
  by_cases hz : fieldZ w = 0
  · rw [decodeCmd_error_iff_of_op w hz]
    exact (or_iff_right (not_not.2 hz)).symm
  · exact iff_of_true ⟨.nonZeroZ, by rw [decodeCmd, if_pos hz]⟩ (.inl hz)

/-- Settles O4: each row's words are the encodings of its steps, read off under the row's mask. -/
theorem commandWordsMatchTheirRows : Obligations.CommandWordsMatchTheirRows := by
  unfold Obligations.CommandWordsMatchTheirRows
  intro w
  exact ⟨decode_cmd_iff_of_noOperand rfl rfl w,
    decode_cmd_iff_of_timerId (mk := .treset) (op := 1) (fun _ => rfl) (fun _ => rfl) rfl w,
    decode_cmd_iff_of_timerId (mk := .telapsed) (op := 2) (fun _ => rfl) (fun _ => rfl) rfl w,
    decode_cmd_iff_of_setduty w,
    decode_cmd_iff_of_noOperand rfl rfl w, decode_cmd_iff_of_noOperand rfl rfl w,
    decode_cmd_iff_of_noOperand rfl rfl w, decode_cmd_iff_of_noOperand rfl rfl w⟩

/-- Settles O5: the worked words, run through the decoder. -/
theorem workedEncodingsDecode : Obligations.WorkedEncodingsDecode := by
  unfold Obligations.WorkedEncodingsDecode
  decide

end Sys2Proof
end

section
/-! The family 30_encoding section 6: the bytes, the fields and the checksum of the sensor frame, on numbers
(R14, R95, R96, R171). -/

namespace Sys2Proof.Machine

/-! ## Fields and checksum as numbers -/

/-- The bit of sequence index `i`, which stands at `FRAME[39 - i]`, in its byte (R95). -/
theorem frameByte_getLsbD (f : Frame) {i : Nat} (hi : i < 40) :
    (frameByte f (i / 8)).getLsbD (7 - i % 8) = f.getLsbD (39 - i) := by
  have hbit : 7 - i % 8 < 8 := by omega
  have hpos : 32 - 8 * (i / 8) + (7 - i % 8) = 39 - i := by omega
  rw [frameByte, BitVec.getLsbD_extractLsb', hpos, decide_eq_true hbit, Bool.true_and]

theorem humRaw_eq (f : Frame) : humRaw f = f.toNat / 2 ^ 24 := by
  have hlt := f.isLt
  rw [humRaw, frameByte_toNat, frameByte_toNat]
  omega

theorem tempRaw_eq (f : Frame) : tempRaw f = f.toNat / 2 ^ 8 % 2 ^ 16 := by
  rw [tempRaw, frameByte_toNat, frameByte_toNat]
  omega

/-- The temperature flag is the frame's bit of sequence index 16 (R96). -/
theorem tempFlag_eq (f : Frame) : tempFlag f = f.getLsbD 23 := frameByte_getLsbD f (i := 16) (by decide)

theorem sum8_toNat (b0 b1 b2 b3 : Byte) :
    (sum8 b0 b1 b2 b3).toNat = (b0.toNat + b1.toNat + b2.toNat + b3.toNat) % 256 := by
  simp only [sum8, BitVec.toNat_add]
  omega

theorem checksumGood_iff (f : Frame) :
    checksumGood f = true ↔
      f.toNat % 256 =
        (f.toNat / 2 ^ 32 + f.toNat / 2 ^ 24 % 256 + f.toNat / 2 ^ 16 % 256 + f.toNat / 2 ^ 8 % 256) % 256 := by
  have hlt := f.isLt
  rw [checksumGood, decide_eq_true_eq, ← BitVec.toNat_inj, sum8_toNat]
  simp only [frameByte_toNat]
  omega

/-! ## The obligations -/

/-- Settles O6: the bytes are cut from the frame from its most significant end, so the fields read as its digits. -/
theorem frameBytesAndFieldsAreBigEndian : Obligations.FrameBytesAndFieldsAreBigEndian := by
  unfold Obligations.FrameBytesAndFieldsAreBigEndian
  intro f
  exact ⟨fun _ hi => frameByte_getLsbD f hi, humRaw_eq f, tempRaw_eq f, tempFlag_eq f,
    fun hflag => Nat.le_of_lt_succ (tempRaw_lt_of_flag f hflag), by simpa using frameByte_toNat f 4⟩

/-- Settles O7: equality of bytes is equality of their numbers, and the sum of bytes wraps at 256. -/
theorem checksumIsTheSumModulo256 : Obligations.ChecksumIsTheSumModulo256 := by
  unfold Obligations.ChecksumIsTheSumModulo256
  intro f
  exact checksumGood_iff f

end Sys2Proof.Machine
end

section
/-! Single steps, one equation for each case of each meaning: the events (R110, R133, R134, R159, R160), the host
operations (R111, R132, R155, R192 to R194), `SAMPLE` (R161 to R170) and `RESET` (R240). -/

namespace Sys2Proof.Machine

/-! ## `TICK_EV` -/

theorem exec_tickEv_of_noPulse {s : State} (hstage : s.slState ≠ .reqPulse) :
    exec .tickEv s = .next { noResponse s with tick := tickSucc s.params s.tick } :=
  congrArg Host.Outcome.next (if_neg hstage)

theorem exec_tickEv_of_innerTick {s : State} (hstage : s.slState = .reqPulse)
    (hinner : s.reqCnt + 1 ≠ s.params.reqLow) :
    exec .tickEv s =
      .next { noResponse s with tick := tickSucc s.params s.tick, reqCnt := s.reqCnt + 1 } :=
  congrArg Host.Outcome.next ((if_pos hstage).trans (if_neg hinner))

theorem exec_tickEv_of_lastTick {s : State} (hstage : s.slState = .reqPulse)
    (hlast : s.reqCnt + 1 = s.params.reqLow) :
    exec .tickEv s =
      .next { noResponse s with
        tick := tickSucc s.params s.tick, lineDrv := false, slState := .waitAck0, toCnt := 0, reqCnt := 0 } :=
  congrArg Host.Outcome.next ((if_pos hstage).trans (if_pos hlast))

/-! ## `CMP_EV` -/

theorem exec_cmpEv_of_disabled {s : State} (hen : s.pwmEn = false) : exec .cmpEv s = .next (noResponse s) :=
  congrArg Host.Outcome.next (if_neg (Bool.not_eq_true _ ▸ hen))

theorem exec_cmpEv_of_enabled {s : State} (hen : s.pwmEn = true) :
    exec .cmpEv s = .next (pwmSubCycle (noResponse s)) :=
  congrArg Host.Outcome.next (if_pos hen)

theorem clearAtMatch_eq (n d : Nat) (out : Level) : clearAtMatch n d out = (out && n != d) := by
  by_cases hnd : n = d <;> simp [clearAtMatch, hnd]

/-! ## The host operations -/

/-- What an accepted host operation does to the state; nothing for an event. -/
def hostEffect : Instr → State → State
  | .now, s => respond (zext32 s.tick) s
  | .treset id, s => respond 0 (writeSnap s id s.tick)
  | .telapsed id, s => respond (if id < Config.nTimers then zext32 (elapsed s id) else 0) s
  | .setduty r g b, s => respond 0 { s with duty := ⟨clamp100 r, clamp100 g, clamp100 b⟩ }
  | .poll, s => if sensorDue s then noResponse (openTransaction s) else respond (ResultCode.word .notDue) s
  | .gethum, s => respond (readingWord s.humValid s.humVal) s
  | .gettemp, s => respond (readingWord s.tempValid s.tempVal) s
  | .geterr, s => respond (s.err.zeroExtend 32) s
  | .reset, s | .tickEv, s | .cmpEv, s | .bitEv, s | .sample _, s => s

/-- Every host operation goes through the gate of R63. -/
theorem exec_eq_hostOp {i : Instr} (hhost : i.isHostOp = true) (s : State) :
    exec i s = hostOp s (hostEffect i) := by
  cases i with
  | now | treset | telapsed | setduty | poll | gethum | gettemp | geterr => rfl
  | reset | tickEv | cmpEv | bitEv | sample => cases hhost

theorem exec_of_idle {i : Instr} {s : State} (hhost : i.isHostOp = true) (hidle : s.slState = .idle) :
    exec i s = .next (hostEffect i s) := by
  rw [exec_eq_hostOp hhost, hostOp_of_idle s _ hidle]

theorem exec_of_busy {i : Instr} {s : State} (hhost : i.isHostOp = true) (hbusy : s.slState ≠ .idle) :
    exec i s = .refused .busy := by
  rw [exec_eq_hostOp hhost, hostOp_of_busy s _ hbusy]

theorem clamp100_eq (d : Nat) : clamp100 d = min d 100 := by
  unfold clamp100 Config.dutyMax
  split <;> omega

theorem exec_poll_of_notDue {s : State} (hidle : s.slState = .idle) (hdue : ¬ SensorIsDue s) :
    exec .poll s = .next (respond 1 s) := by
  rw [exec_poll, hostOp_of_idle s _ hidle, if_neg (mt (sensorDue_eq_true_iff s).1 hdue)]
  rfl

theorem exec_poll_of_due {s : State} (hidle : s.slState = .idle) (hdue : SensorIsDue s) :
    exec .poll s = .next (noResponse (openTransaction s)) := by
  rw [exec_poll, hostOp_of_idle s _ hidle, if_pos ((sensorDue_eq_true_iff s).2 hdue)]

theorem openTransaction_eq (s : State) :
    openTransaction s = { s with
      snap := s.snap.set s.params.sensorTimer.val s.tick
      pwmEn := false, lineDrv := true, slState := .reqPulse
      reqCnt := 0, bitIdx := 0, toCnt := 0, frame := 0 } := by
  rw [openTransaction, writeSnap_of_valid s _ _ s.params.sensorTimer.isLt]

theorem readingWord_eq (valid : Bool) (value : BitVec 16) :
    readingWord valid value = BitVec.ofNat 32 (value.toNat + if valid then 2 ^ 16 else 0) := by
  have hlt := value.isLt
  apply BitVec.eq_of_toNat_eq
  rw [readingWord, append_toNat, append_toNat, BitVec.toNat_ofNat, BitVec.toNat_ofBool]
  cases valid <;> simp <;> omega

/-! ## `SAMPLE` -/

/-- Outside the wait stages there is no `SAMPLE` (R153). -/
theorem exec_sample_of_noWait {s : State} (lv : Level) (hwait : SlState.wait s.slState = none) :
    exec (.sample lv) s = .refused .sampleNotEnabled := by
  simp only [exec, execSample, hwait]

/-- In a wait stage every `SAMPLE` completes (R161). -/
theorem exec_sample_of_wait {s : State} (lv : Level) {p : Level × ResultCode}
    (hwait : SlState.wait s.slState = some p) : ∃ t, exec (.sample lv) s = .next t := by
  simp only [exec, execSample, hwait]
  exact ⟨_, rfl⟩

/-- The two stages that are no wait stages (R151). -/
theorem wait_eq_none_iff (st : SlState) : SlState.wait st = none ↔ st = .idle ∨ st = .reqPulse := by
  cases st <;> decide

/-- A `SAMPLE` of the other level is a miss (R162). -/
theorem exec_sample_of_miss {s : State} {lv awaited : Level} {code : ResultCode}
    (hwait : SlState.wait s.slState = some (awaited, code)) (hmiss : lv ≠ awaited) :
    exec (.sample lv) s = .next (sampleMiss code (noResponse s)) := by
  simp only [exec, execSample, hwait, if_neg hmiss]

theorem sampleMatch_of_waitAck0 (s : State) (hstage : s.slState = .waitAck0) :
    sampleMatch s = enterStage .waitAck1 s := by
  simp only [sampleMatch, hstage]

/-- The levels a stage does not await, with the code its timeout aborts with (R151). -/
theorem wait_of_mem_missTable {st : SlState} {lv : Level} {code : Word}
    (hmem : (st, lv, code) ∈ [(SlState.waitAck0, true, 2#32), (.waitAck1, false, 3#32), (.waitAck2, true, 4#32),
      (.bitWaitHigh, false, 5#32), (.bitWaitLow, true, 6#32)]) :
    ∃ awaited result, SlState.wait st = some (awaited, result) ∧ lv ≠ awaited ∧ ResultCode.word result = code := by
  simp only [List.mem_cons, List.not_mem_nil, or_false, Prod.mk.injEq] at hmem
  obtain ⟨rfl, rfl, rfl⟩ | ⟨rfl, rfl, rfl⟩ | ⟨rfl, rfl, rfl⟩ | ⟨rfl, rfl, rfl⟩ | ⟨rfl, rfl, rfl⟩ := hmem <;>
    exact ⟨_, _, rfl, by decide, rfl⟩

/-- The same levels without the codes. -/
theorem wait_of_mem_missLevels {st : SlState} {lv : Level}
    (hmem : (st, lv) ∈ [(SlState.waitAck0, true), (.waitAck1, false), (.waitAck2, true),
      (.bitWaitHigh, false), (.bitWaitLow, true)]) :
    ∃ awaited result, SlState.wait st = some (awaited, result) ∧ lv ≠ awaited := by
  simp only [List.mem_cons, List.not_mem_nil, or_false, Prod.mk.injEq] at hmem
  obtain ⟨rfl, rfl⟩ | ⟨rfl, rfl⟩ | ⟨rfl, rfl⟩ | ⟨rfl, rfl⟩ | ⟨rfl, rfl⟩ := hmem <;>
    exact ⟨_, _, rfl, by decide⟩

/-! ## The ends of a transaction -/

theorem satInc_eq (e : Byte) : satInc e = BitVec.ofNat 8 (min (e.toNat + 1) 255) := by
  apply BitVec.eq_of_toNat_eq
  rw [satInc_toNat, BitVec.toNat_ofNat]
  omega

theorem validAfterError_satInc (p : Params) (e : Byte) (valid : Bool) :
    validAfterError p (satInc e) valid = (valid && decide (min (e.toNat + 1) 255 ≤ p.maxErrors)) := by
  unfold validAfterError
  rw [satInc_toNat]
  split
  · next hpast => rw [decide_eq_false (Nat.not_le.2 hpast), Bool.and_false]
  · next hbelow => rw [decide_eq_true (Nat.not_lt.1 hbelow), Bool.and_true]

/-- The abort sequence, on numbers (R198, R214). -/
theorem abort_eq (code : ResultCode) (s : State) :
    abort code s = { s with
      err := BitVec.ofNat 8 (min (s.err.toNat + 1) 255)
      humValid := s.humValid && decide (min (s.err.toNat + 1) 255 ≤ s.params.maxErrors)
      tempValid := s.tempValid && decide (min (s.err.toNat + 1) 255 ≤ s.params.maxErrors)
      lineDrv := false, pwmEn := true, slState := .idle, rsp := some (ResultCode.word code) } := by
  rw [← satInc_eq, ← validAfterError_satInc, ← validAfterError_satInc]
  rfl

theorem completion_of_good {s : State} (hgood : checksumGood s.frame = true) :
    completion s = endSuccess (successSequence (humRaw s.frame) (tempFlag s.frame) (tempRaw s.frame) s) := by
  rw [completion, if_pos hgood]

theorem completion_of_bad {s : State} (hbad : checksumGood s.frame = false) :
    completion s = abort .checksumError s := by
  rw [completion, if_neg (Bool.not_eq_true _ ▸ hbad)]

/-- A successful completion, field by field (R170, R195 to R197). -/
theorem endSuccess_successSequence_eq (hum : Nat) (tflag : Bool) (temp : Nat) (s : State) :
    endSuccess (successSequence hum tflag temp s) = { s with
      humVal := BitVec.ofNat 16 ((hum + 5) / 10), humValid := true
      tempVal := if tflag then s.tempVal else BitVec.ofNat 16 ((temp + 5) / 10)
      tempValid := !tflag
      err := 0, pwmEn := true, slState := .idle, rsp := some 0 } := by
  rw [← div10r_eq, ← div10r_eq]
  rfl

/-- The frame after the last slot, described bit by bit, is the one the step stores (R167). -/
theorem storeBit_last_eq {f g : Frame} {bit : Bool}
    (hbits : ∀ j, j < 40 → g.getLsbD j = if j = 0 then bit else f.getLsbD j) : storeBit f 39 bit = g := by
  apply BitVec.eq_of_getLsbD_eq
  intro j hj
  rw [hbits j hj, storeBit_getLsbD f 39 bit j (by decide) hj]

/-- The `SAMPLE` that ends the last slot stores its bit and completes (R168). -/
theorem exec_sample_of_lastSlot {s : State} {f : Frame} (hstage : s.slState = .bitWaitLow) (hlast : s.bitIdx = 39)
    (hbits : ∀ j, j < 40 → f.getLsbD j =
      if j = 0 then decide (s.params.bitThreshold < s.bitCnt.toNat) else s.frame.getLsbD j) :
    exec (.sample false) s = .next (completion { noResponse s with frame := f }) := by
  rw [exec_sample_of_awaited (by rw [hstage]; rfl), sampleMatch_of_lastSlot (noResponse s) hstage hlast]
  rw [show storeBit (noResponse s).frame 39 (slotBit (noResponse s).params (noResponse s).bitCnt) = f from
    storeBit_last_eq hbits]

/-! ## The obligations -/

/-- Settles O15: the three cases of counting the request pulse. -/
theorem tickEvAdvancesTickAndRequestPulse : Obligations.TickEvAdvancesTickAndRequestPulse := by
  unfold Obligations.TickEvAdvancesTickAndRequestPulse
  intro s
  exact ⟨exec_tickEv_of_noPulse, exec_tickEv_of_innerTick, exec_tickEv_of_lastTick⟩

/-- Settles O16: both only respond, and zero extension keeps the number. -/
theorem nowAndGeterrRespondCounters : Obligations.NowAndGeterrRespondCounters := by
  unfold Obligations.NowAndGeterrRespondCounters
  intro s hidle
  rw [exec_now, exec_geterr, hostOp_of_idle s _ hidle, hostOp_of_idle s _ hidle]
  refine ⟨rfl, ?_⟩
  rw [BitVec.ofNat_toNat]
  rfl

/-- Settles O22: the clamp is the minimum with 100. -/
theorem setdutyReplacesTriple : Obligations.SetdutyReplacesTriple := by
  unfold Obligations.SetdutyReplacesTriple
  intro s r g b hidle
  rw [exec_setduty, hostOp_of_idle s _ hidle, clamp100_eq, clamp100_eq, clamp100_eq]
  rfl

/-- Settles O23: a dropped event, a sub-cycle below the wrap, and the wrap. -/
theorem cmpEvRunsOneSubCycle : Obligations.CmpEvRunsOneSubCycle := by
  unfold Obligations.CmpEvRunsOneSubCycle
  intro s
  refine ⟨exec_cmpEv_of_disabled, fun hen hlt => ?_, fun hen hge => ?_⟩
  · rw [exec_cmpEv_of_enabled hen, pwmSubCycle_of_lt (noResponse s) hlt]
    simp only [Rgb.zipWith, clearAtMatch_eq]
    rfl
  · rw [exec_cmpEv_of_enabled hen, pwmSubCycle_of_ge (noResponse s) hge]
    rfl

/-- Settles O30: with the sensor not due `POLL` only responds. -/
theorem pollNotDueRespondsOne : Obligations.PollNotDueRespondsOne := by
  unfold Obligations.PollNotDueRespondsOne
  intro s hidle hdue
  exact exec_poll_of_notDue hidle hdue

/-- Settles O32: with the sensor due `POLL` opens a transaction and does not respond. -/
theorem pollDueOpensTransaction : Obligations.PollDueOpensTransaction := by
  unfold Obligations.PollDueOpensTransaction
  intro s hidle hdue
  rw [exec_poll_of_due hidle hdue, openTransaction_eq]
  rfl

/-- Settles O33: adding one to a byte is adding one to its number modulo 256. -/
theorem bitEvCountsModulo256 : Obligations.BitEvCountsModulo256 := by
  unfold Obligations.BitEvCountsModulo256
  intro s
  have hsucc : s.bitCnt + 1 = BitVec.ofNat 8 ((s.bitCnt.toNat + 1) % 256) := by
    apply BitVec.eq_of_toNat_eq
    rw [BitVec.toNat_add, BitVec.toNat_ofNat, Nat.mod_mod]
    rfl
  rw [← hsucc]
  rfl

/-- Settles O35: the match rule of `WaitAck0` is the entry to `WaitAck1`. -/
theorem firstAcknowledgmentMatch : Obligations.FirstAcknowledgmentMatch := by
  unfold Obligations.FirstAcknowledgmentMatch
  intro s hstage
  rw [exec_sample_of_awaited (by rw [hstage]; rfl), sampleMatch_of_waitAck0 (noResponse s) hstage]
  rfl

/-- Settles O39: the last bit is stored first, and the completion then reads the whole frame. -/
theorem lastBitWithGoodChecksumUpdatesCache : Obligations.LastBitWithGoodChecksumUpdatesCache := by
  unfold Obligations.LastBitWithGoodChecksumUpdatesCache
  intro s f hstage hlast hbits hgood
  rw [exec_sample_of_lastSlot hstage hlast hbits, completion_of_good hgood, endSuccess_successSequence_eq]
  rfl

/-- Settles O40: the completion of a frame that fails the checksum is `abort(7)`. -/
theorem lastBitWithBadChecksumAborts : Obligations.LastBitWithBadChecksumAborts := by
  unfold Obligations.LastBitWithBadChecksumAborts
  intro s f hstage hlast hbits hbad
  rw [exec_sample_of_lastSlot hstage hlast hbits, completion_of_bad hbad, abort_eq]
  rfl

/-- Settles O41: in each stage the level is the one not awaited, and below the cap a miss only counts. -/
theorem sampleMissCounts : Obligations.SampleMissCounts := by
  unfold Obligations.SampleMissCounts
  intro s lv hmem hbelow
  obtain ⟨awaited, result, hwait, hmiss⟩ := wait_of_mem_missLevels hmem
  rw [exec_sample_of_miss hwait hmiss, sampleMiss_of_lt result (noResponse s) hbelow]
  rfl

/-- Settles O42: at the cap the miss takes the abort sequence with the stage's code. -/
theorem sampleTimeoutAborts : Obligations.SampleTimeoutAborts := by
  unfold Obligations.SampleTimeoutAborts
  intro s lv code hmem hcap
  obtain ⟨awaited, result, hwait, hmiss, rfl⟩ := wait_of_mem_missTable hmem
  rw [exec_sample_of_miss hwait hmiss, sampleMiss_of_cap result (noResponse s) hcap, abort_eq]
  rfl

/-- Settles O49: `{flag, value}` is the value plus `2^16` if the flag is set. -/
theorem readingsRespondValueAndFlag : Obligations.ReadingsRespondValueAndFlag := by
  unfold Obligations.ReadingsRespondValueAndFlag
  intro s hidle
  rw [exec_gethum, exec_gettemp, hostOp_of_idle s _ hidle, hostOp_of_idle s _ hidle, readingWord_eq, readingWord_eq]
  exact ⟨rfl, rfl⟩

/-- Settles O50: the step writes every element but the configuration and the stimuli still to come. -/
theorem resetRewritesEverything : Obligations.ResetRewritesEverything := by
  unfold Obligations.ResetRewritesEverything
  intro s
  rfl

/-- Settles O51: read off the state after reset, element by element. -/
theorem resetStateValues : Obligations.ResetStateValues := by
  unfold Obligations.ResetStateValues
  refine ⟨rfl, ?_, rfl, rfl, rfl, rfl, rfl, rfl, rfl, rfl, rfl, rfl, rfl, rfl, rfl, rfl, rfl, rfl⟩
  decide

/-- Settles O34: host operations are gated by `Idle`, `SAMPLE` by the table of wait stages, the rest by nothing. -/
theorem stepsEnabledByStage : Obligations.StepsEnabledByStage := by
  unfold Obligations.StepsEnabledByStage
  intro s
  refine ⟨fun i hhost => ⟨fun hidle => ⟨_, exec_of_idle hhost hidle⟩, exec_of_busy hhost⟩,
    fun lv => ⟨fun hstage => ?_, fun hstage => exec_sample_of_noWait lv ((wait_eq_none_iff s.slState).2 hstage)⟩, ?_⟩
  · have hwait : SlState.wait s.slState ≠ none := mt (wait_eq_none_iff s.slState).1 (not_or.2 hstage)
    obtain ⟨p, hp⟩ := Option.ne_none_iff_exists'.1 hwait
    exact exec_sample_of_wait lv hp
  · intro i hmem
    simp only [List.mem_cons, List.not_mem_nil, or_false] at hmem
    obtain rfl | rfl | rfl | rfl := hmem <;> exact ⟨_, rfl⟩

end Sys2Proof.Machine
end

section
/-! The step and the ports (10_state.md R40, R41, 20_memory.md R60, R73, R76): a step neither reads nor writes the
stimuli still to come, so the machine over a queue is the run of the steps it stands for. -/

namespace Sys2Proof.Machine

/-! ## Outcomes under a function of states -/

/-- The outcome with `g` applied to its next state. -/
def mapNext (g : State → State) : Host.Outcome State Fault Refusal → Host.Outcome State Fault Refusal
  | .next t => .next (g t)
  | .fault f => .fault f
  | .refused r => .refused r

@[simp] theorem mapNext_next (g : State → State) (t : State) : mapNext g (.next t) = .next (g t) := rfl

@[simp] theorem mapNext_refused (g : State → State) (r : Refusal) : mapNext g (.refused r) = .refused r := rfl

/-- The state with other stimuli to come. -/
def withInputs (q : List Stimulus) (s : State) : State := { s with inputs := q }

/-! ## No meaning reads the stimuli still to come (log 1) -/

theorem writeSnap_withInputs (q : List Stimulus) (s : State) (id v : Nat) :
    writeSnap (withInputs q s) id v = withInputs q (writeSnap s id v) := by
  unfold writeSnap
  split <;> rfl

theorem openTransaction_withInputs (q : List Stimulus) (s : State) :
    openTransaction (withInputs q s) = withInputs q (openTransaction s) := by
  rw [openTransaction_eq, openTransaction_eq]
  rfl

theorem hostEffect_withInputs (i : Instr) (q : List Stimulus) (s : State) :
    hostEffect i (withInputs q s) = withInputs q (hostEffect i s) := by
  cases i with
  | treset id => exact congrArg (respond 0) (writeSnap_withInputs q s id s.tick)
  | poll =>
    show (if sensorDue s then _ else _) = withInputs q (if sensorDue s then _ else _)
    split
    · exact congrArg noResponse (openTransaction_withInputs q s)
    · rfl
  | now | telapsed | setduty | gethum | gettemp | geterr | reset | tickEv | cmpEv | bitEv | sample => rfl

theorem completion_withInputs (q : List Stimulus) (s : State) :
    completion (withInputs q s) = withInputs q (completion s) := by
  show (if checksumGood s.frame then _ else _) = withInputs q (if checksumGood s.frame then _ else _)
  split <;> rfl

theorem slotEnd_withInputs (q : List Stimulus) (s : State) :
    slotEnd (withInputs q s) = withInputs q (slotEnd s) := by
  show (if s.bitIdx < 39 then _ else _) = withInputs q (if s.bitIdx < 39 then _ else _)
  split
  · rfl
  · exact completion_withInputs q { s with frame := storeBit s.frame s.bitIdx (slotBit s.params s.bitCnt) }

theorem sampleMatch_withInputs (q : List Stimulus) (s : State) :
    sampleMatch (withInputs q s) = withInputs q (sampleMatch s) := by
  cases hstage : s.slState with
  | bitWaitLow =>
    simpa only [sampleMatch, hstage, show (withInputs q s).slState = _ from hstage] using slotEnd_withInputs q s
  | idle | reqPulse => simp only [sampleMatch, hstage, show (withInputs q s).slState = _ from hstage]
  | waitAck0 | waitAck1 | waitAck2 | bitWaitHigh =>
    simp only [sampleMatch, hstage, show (withInputs q s).slState = _ from hstage]
    rfl

theorem sampleMiss_withInputs (code : ResultCode) (q : List Stimulus) (s : State) :
    sampleMiss code (withInputs q s) = withInputs q (sampleMiss code s) := by
  show (if s.toCnt + 1 = s.params.sensTimeout then _ else _) =
    withInputs q (if s.toCnt + 1 = s.params.sensTimeout then _ else _)
  split <;> rfl

theorem exec_sample_withInputs (lv : Level) (q : List Stimulus) (s : State) :
    exec (.sample lv) (withInputs q s) = mapNext (withInputs q) (exec (.sample lv) s) := by
  cases hwait : SlState.wait s.slState with
  | none => rw [exec_sample_of_noWait lv hwait, exec_sample_of_noWait (s := withInputs q s) lv hwait, mapNext_refused]
  | some p =>
    obtain ⟨awaited, code⟩ := p
    have hwait' : SlState.wait (withInputs q s).slState = some (awaited, code) := hwait
    by_cases hlv : lv = awaited
    · subst hlv
      rw [exec_sample_of_awaited hwait, exec_sample_of_awaited hwait', mapNext_next, ← sampleMatch_withInputs]
      rfl
    · rw [exec_sample_of_miss hwait hlv, exec_sample_of_miss hwait' hlv, mapNext_next, ← sampleMiss_withInputs]
      rfl

theorem countRequestPulse_withInputs (q : List Stimulus) (s : State) :
    countRequestPulse (withInputs q s) = withInputs q (countRequestPulse s) := by
  show (if s.reqCnt + 1 = s.params.reqLow then _ else _) =
    withInputs q (if s.reqCnt + 1 = s.params.reqLow then _ else _)
  split <;> rfl

/-- Exchanging the stimuli still to come exchanges them in the next state and changes nothing else. -/
theorem exec_withInputs (i : Instr) (q : List Stimulus) (s : State) :
    exec i (withInputs q s) = mapNext (withInputs q) (exec i s) := by
  by_cases hhost : i.isHostOp = true
  · by_cases hidle : s.slState = .idle
    · rw [exec_of_idle hhost hidle, exec_of_idle (s := withInputs q s) hhost hidle, hostEffect_withInputs, mapNext_next]
    · rw [exec_of_busy hhost hidle, exec_of_busy (s := withInputs q s) hhost hidle, mapNext_refused]
  · cases i with
    | now | treset | telapsed | setduty | poll | gethum | gettemp | geterr => exact absurd rfl hhost
    | tickEv =>
      show Host.Outcome.next (if s.slState = .reqPulse then _ else _) =
        .next (withInputs q (if s.slState = .reqPulse then _ else _))
      split
      · exact congrArg Host.Outcome.next 
          (countRequestPulse_withInputs q { noResponse s with tick := tickSucc s.params s.tick })
      · rfl
    | cmpEv =>
      show Host.Outcome.next (if s.pwmEn then _ else _) = .next (withInputs q (if s.pwmEn then _ else _))
      split <;> rfl
    | sample lv => exact exec_sample_withInputs lv q s
    | reset | bitEv => rfl

/-- A step leaves the stimuli still to come. -/
theorem exec_inputs {i : Instr} {s t : State} (hnext : exec i s = .next t) : t.inputs = s.inputs := by
  have hself := exec_withInputs i s.inputs s
  rw [show withInputs s.inputs s = s from rfl, hnext, mapNext_next, Host.Outcome.next.injEq] at hself
  rw [hself]
  rfl

/-! ## Taking a stimulus -/

theorem step_of_decode_ok {s : State} {x : Stimulus} {rest : List Stimulus} {i : Instr}
    (hin : s.inputs = x :: rest) (hok : decode x = .ok i) : step s = exec i (withInputs rest s) := by
  simp only [step, nextStimulus, hin, hok]
  rfl

theorem step_of_decode_error {s : State} {x : Stimulus} {rest : List Stimulus} {why : Reserved}
    (hin : s.inputs = x :: rest) (herr : decode x = .error why) : step s = .refused (.reservedCommand why) := by
  simp only [step, nextStimulus, hin, herr]

theorem step_of_no_inputs {s : State} (hin : s.inputs = []) : step s = .next (noResponse s) := by
  simp only [step, nextStimulus, hin]

theorem tableStimulus_cmd (w : Word) : tableStimulus 32 w.toNat = some (.cmd w) := by
  simp [tableStimulus, w.isLt]

/-! ## Runs of the machine over a queue -/

theorem coreRun_succ_of_next {s t : State} (hstep : step s = .next t) (k : Nat) :
    Host.Core.run Sys2Proof.core (k + 1) s = Host.Core.run Sys2Proof.core k t := by
  have hstep' : Sys2Proof.core.step s = .next t := hstep
  simp only [Host.Core.run, hstep']

theorem coreRun_succ_of_refused {s : State} {r : Refusal} (hstep : step s = .refused r) (k : Nat) :
    Host.Core.run Sys2Proof.core (k + 1) s = .refused r := by
  have hstep' : Sys2Proof.core.step s = .refused r := hstep
  simp only [Host.Core.run, hstep']

/-- No step faults (60_exceptions.md R211). -/
theorem exec_cases (i : Instr) (s : State) : (∃ t, exec i s = .next t) ∨ ∃ r, exec i s = .refused r := by
  cases exec i s with
  | next t => exact .inl ⟨t, rfl⟩
  | fault f => cases f
  | refused r => exact .inr ⟨r, rfl⟩

theorem run_cons_of_refused {i : Instr} {s : State} {r : Refusal} (is : List Instr) (hexec : exec i s = .refused r) :
    run (i :: is) s = .refused r := by
  simp only [run, hexec]

theorem run_withInputs (is : List Instr) (q : List Stimulus) (s : State) :
    run is (withInputs q s) = mapNext (withInputs q) (run is s) := by
  induction is generalizing s with
  | nil => rfl
  | cons i is ih =>
    have hmap := exec_withInputs i q s
    obtain ⟨t, hexec⟩ | ⟨r, hexec⟩ := exec_cases i s
    · rw [hexec, mapNext_next] at hmap
      rw [run_cons_of_next is hmap, run_cons_of_next is hexec, ih]
    · rw [hexec, mapNext_refused] at hmap
      rw [run_cons_of_refused is hmap, run_cons_of_refused is hexec, mapNext_refused]

/-- The machine over stimuli that decode to `is` is the run of `is`, refusals included; what stands in the queue
behind them stays. -/
theorem coreRun_eq_run {xs : List Stimulus} {is : List Instr}
    (hdec : List.Forall₂ (fun x i => decode x = .ok i) xs is) (rest : List Stimulus) (s : State) :
    Host.Core.run Sys2Proof.core is.length (withInputs (xs ++ rest) s) = run is (withInputs rest s) := by
  induction hdec generalizing s with
  | nil => rfl
  | @cons x i xs is hx _ ih =>
    have hstep : step (withInputs (x :: xs ++ rest) s) =
        mapNext (withInputs (xs ++ rest)) (exec i (withInputs rest s)) :=
      (step_of_decode_ok rfl hx).trans (exec_withInputs i (xs ++ rest) (withInputs rest s))
    rw [List.length_cons]
    obtain ⟨t, hexec⟩ | ⟨r, hexec⟩ := exec_cases i (withInputs rest s)
    · have hrest : withInputs rest t = t := by
        rw [← show t.inputs = rest from exec_inputs hexec]; rfl
      rw [hexec, mapNext_next] at hstep
      rw [coreRun_succ_of_next hstep, run_cons_of_next is hexec, ih t, hrest]
    · rw [hexec, mapNext_refused] at hstep
      exact (coreRun_succ_of_refused hstep _).trans (run_cons_of_refused is hexec).symm

theorem forall₂_decode_map_encode {is : List Instr} (hwf : ∀ i ∈ is, i.wf = true) :
    List.Forall₂ (fun x i => decode x = .ok i) (is.map encode) is := by
  rw [List.forall₂_map_left_iff, List.forall₂_same]
  exact fun i hi => decode_encode (hwf i hi)

/-! ## A clock cycle (R76) -/

section
variable {c : InPorts} {s : State} (hin : s.inputs = [])
include hin

theorem present_eq_withInputs (c : InPorts) : present c s = withInputs (serialise c) s := by
  rw [present, hin]
  rfl

theorem withInputs_nil : withInputs [] s = s := by
  rw [← hin]
  rfl

/-- A cycle without a command is the run of its events. -/
theorem coreRun_present_of_noCommand (hrst : c.rst = false) (hcmd : c.cmdValid = false) :
    Host.Core.run Sys2Proof.core (cycleEvents c).length (present c s) = run (cycleEvents c) s := by
  obtain ⟨xs, hxs, hdec⟩ := serialise_of_no_rst c hrst
  rw [present_eq_withInputs hin, hxs, hcmd, if_neg Bool.false_ne_true, coreRun_eq_run hdec, withInputs_nil hin]

/-- A cycle with a host operation is the run of its events and then the operation. -/
theorem coreRun_present_of_command {i : Instr} (hrst : c.rst = false) (hcmd : c.cmdValid = true)
    (hok : decode (.cmd c.cmd) = .ok i) :
    Host.Core.run Sys2Proof.core ((cycleEvents c).length + 1) (present c s) = run (cycleEvents c ++ [i]) s := by
  obtain ⟨xs, hxs, hdec⟩ := serialise_of_no_rst c hrst
  have hrun := coreRun_eq_run (List.rel_append hdec (List.Forall₂.cons hok .nil)) [] s
  rw [List.append_nil, withInputs_nil hin, List.length_append, List.length_singleton] at hrun
  rw [present_eq_withInputs hin, hxs, if_pos hcmd, hrun]

/-- A cycle with a reserved word is refused once its events have run. -/
theorem coreRun_present_of_reserved {why : Reserved} {u : State} (hrst : c.rst = false) (hcmd : c.cmdValid = true)
    (herr : decode (.cmd c.cmd) = .error why) (hrun : run (cycleEvents c) s = .next u) :
    Host.Core.run Sys2Proof.core ((cycleEvents c).length + 1) (present c s) = .refused (.reservedCommand why) := by
  obtain ⟨xs, hxs, hdec⟩ := serialise_of_no_rst c hrst
  have hevents := coreRun_eq_run hdec [.cmd c.cmd] s
  rw [run_withInputs, hrun, mapNext_next] at hevents
  rw [present_eq_withInputs hin, hxs, if_pos hcmd, coreRun_add_of_next _ _ 1 _ _ hevents]
  exact coreRun_succ_of_refused (step_of_decode_error rfl herr) 0

end

/-! ## The output pins -/

theorem getLsbD_channelBits (r g b : Bool) :
    (BitVec.ofBool b ++ (BitVec.ofBool g ++ BitVec.ofBool r)).getLsbD 0 = r ∧
    (BitVec.ofBool b ++ (BitVec.ofBool g ++ BitVec.ofBool r)).getLsbD 1 = g ∧
    (BitVec.ofBool b ++ (BitVec.ofBool g ++ BitVec.ofBool r)).getLsbD 2 = b := by
  revert r g b
  decide

/-! ## The obligations -/

/-- Settles O8: the step takes the oldest stimulus, and it decodes. -/
theorem stepRunsDecodedInstruction : Obligations.StepRunsDecodedInstruction := by
  unfold Obligations.StepRunsDecodedInstruction
  intro s x rest i hin hok
  exact step_of_decode_ok hin hok

/-- Settles O9: the other two cases of the step. -/
theorem stepOtherwiseRefusesOrIdles : Obligations.StepOtherwiseRefusesOrIdles := by
  unfold Obligations.StepOtherwiseRefusesOrIdles
  intro s
  exact ⟨fun w rest why hin herr => step_of_decode_error hin herr, step_of_no_inputs⟩

/-- Settles O10: a 32-bit word of the table is presented as the command word itself, in front of the rest. -/
theorem presentedWordRunsNext : Obligations.PresentedWordRunsNext := by
  unfold Obligations.PresentedWordRunsNext
  intro s w i hok
  have hpresent : s.withFetchWord 32 w.toNat = withInputs (.cmd w :: s.inputs) s := by
    simp only [State.withFetchWord, presentTableWord, tableStimulus_cmd]
    rfl
  rw [hpresent]
  exact step_of_decode_ok rfl hok

/-- Settles O11: `exec` commutes with exchanging the stimuli still to come. -/
theorem execIgnoresPendingInputs : Obligations.ExecIgnoresPendingInputs := by
  unfold Obligations.ExecIgnoresPendingInputs
  intro i s q
  refine ⟨fun t hnext => ⟨exec_inputs hnext, ?_⟩, fun r hrefused => ?_⟩
  · exact (exec_withInputs i q s).trans (by rw [hnext, mapNext_next]; rfl)
  · exact (exec_withInputs i q s).trans (by rw [hrefused, mapNext_refused])

/-- Settles O12: the encodings of well-formed steps decode to them, one by one. -/
theorem queuedEncodingsRunInOrder : Obligations.QueuedEncodingsRunInOrder := by
  unfold Obligations.QueuedEncodingsRunInOrder
  intro is rest s t hwf hin
  have hrun := coreRun_eq_run (forall₂_decode_map_encode hwf) rest s
  rw [← hin] at hrun
  exact iff_of_eq (congrArg (· = Host.Outcome.next t) hrun)

/-- Settles O13: a cycle is presented as stimuli that decode to its events in order, followed by its command word. -/
theorem simultaneousInputsAreSerialised : Obligations.SimultaneousInputsAreSerialised := by
  unfold Obligations.SimultaneousInputsAreSerialised
  intro c s hin
  refine ⟨fun hrst => ?_, coreRun_present_of_noCommand hin, fun i => coreRun_present_of_command hin,
    fun why u => coreRun_present_of_reserved hin, ?_⟩
  · rw [present_eq_withInputs hin c, serialise_of_rst c hrst]
    exact step_of_decode_ok (s := withInputs [.rst] s) (x := .rst) (i := .reset) rfl rfl
  · intro hrst htick hbit hcmp hsampling hline hcmd hstage hlast
    have hcycle : cycleEvents c = [.tickEv, .sample false] := by
      simp [cycleEvents, htick, hbit, hcmp, hsampling, hline]
    have hrun := coreRun_present_of_noCommand hin hrst hcmd
    rw [hcycle, run_cons_of_next _ (exec_tickEv_of_lastTick hstage hlast),
      run_cons_of_next _ (firstAcknowledgmentMatch _ rfl)] at hrun
    exact ⟨_, hrun, rfl, hin⟩

/-- Settles O14: the pins are cut from the state's own fields. -/
theorem outputPinsShowTheState : Obligations.OutputPinsShowTheState := by
  unfold Obligations.OutputPinsShowTheState
  intro s
  obtain ⟨hred, hgreen, hblue⟩ := getLsbD_channelBits s.pwmOut.r s.pwmOut.g s.pwmOut.b
  exact ⟨hred, hgreen, hblue, rfl, busy_eq_true_iff s⟩

end Sys2Proof.Machine
end

section
/-! The whole machine, step by step: what each step may write (R42), the invariant of R43 and R203, and which steps
respond (R62, R91, R175). -/

namespace Sys2Proof.Machine

/-! ## What a `SAMPLE` keeps (R42) -/

/-- The configuration, the tick clock with its timers, and the PWM with its duties are as before. -/
def KeepsClockAndPwm (s t : State) : Prop :=
  t.params = s.params ∧ t.tick = s.tick ∧ t.snap = s.snap ∧
    t.duty = s.duty ∧ t.pwmCnt = s.pwmCnt ∧ t.pwmOut = s.pwmOut

theorem abort_keepsClockAndPwm (code : ResultCode) (s : State) : KeepsClockAndPwm s (abort code s) :=
  ⟨abort_params code s, abort_tick code s, abort_snap code s, abort_duty code s, abort_pwmCnt code s,
    abort_pwmOut code s⟩

theorem completion_keepsClockAndPwm (s : State) : KeepsClockAndPwm s (completion s) := by
  obtain habort | ⟨hv, tv, tf, -, -, hsuccess⟩ := completion_shape s
  · rw [habort]; exact abort_keepsClockAndPwm _ s
  · rw [hsuccess]; exact ⟨rfl, rfl, rfl, rfl, rfl, rfl⟩

theorem exec_sample_keepsClockAndPwm {lv : Level} {s t : State} (hnext : exec (.sample lv) s = .next t) :
    KeepsClockAndPwm s t := by
  obtain ⟨-, -, ⟨-, rfl⟩ | ⟨-, rfl⟩ | ⟨-, rfl⟩ | ⟨-, rfl⟩ | ⟨-, -, rfl⟩ | ⟨-, -, rfl⟩ | ⟨-, rfl⟩ |
    ⟨-, code, -, -, rfl⟩⟩ := execSample_stage_cases hnext
  · exact ⟨rfl, rfl, rfl, rfl, rfl, rfl⟩
  · exact ⟨rfl, rfl, rfl, rfl, rfl, rfl⟩
  · exact ⟨rfl, rfl, rfl, rfl, rfl, rfl⟩
  · exact ⟨rfl, rfl, rfl, rfl, rfl, rfl⟩
  · exact ⟨rfl, rfl, rfl, rfl, rfl, rfl⟩
  · exact completion_keepsClockAndPwm _
  · exact ⟨rfl, rfl, rfl, rfl, rfl, rfl⟩
  · exact abort_keepsClockAndPwm code (noResponse s)

/-! ## What each step may write (R42) -/

/-- A timer other than the one written keeps its snapshot. -/
theorem writeSnap_getElem_of_ne (s : State) {id : Nat} (v : Nat) (j : Fin Config.nTimers) (hne : id ≠ j.val) :
    (writeSnap s id v).snap[j] = s.snap[j] := by
  rw [← readSnap_eq_getElem, ← readSnap_eq_getElem, readSnap_writeSnap_of_ne s v hne]

/-- The access matrix of R42 for one step. -/
def WritesOnlyItsElements (i : Instr) (s t : State) : Prop :=
  t.params = s.params ∧
  (i ≠ .tickEv → t.tick = s.tick) ∧
  (∀ j : Fin 4, i ≠ .treset j.val → ¬ (i = .poll ∧ j = s.params.sensorTimer) → t.snap[j] = s.snap[j]) ∧
  ((∀ r g b, i ≠ .setduty r g b) → t.duty = s.duty) ∧
  (i ≠ .cmpEv → t.pwmCnt = s.pwmCnt ∧ t.pwmOut = s.pwmOut) ∧
  ((∀ lv, i ≠ .sample lv) → i ≠ .poll → t.pwmEn = s.pwmEn) ∧
  ((∀ lv, i ≠ .sample lv) → i ≠ .poll → i ≠ .tickEv →
    t.slState = s.slState ∧ t.toCnt = s.toCnt ∧ t.reqCnt = s.reqCnt ∧ t.lineDrv = s.lineDrv) ∧
  ((∀ lv, i ≠ .sample lv) → i ≠ .poll → t.bitIdx = s.bitIdx ∧ t.frame = s.frame) ∧
  ((∀ lv, i ≠ .sample lv) → i ≠ .bitEv → t.bitCnt = s.bitCnt) ∧
  ((∀ lv, i ≠ .sample lv) → t.humVal = s.humVal ∧ t.humValid = s.humValid ∧
    t.tempVal = s.tempVal ∧ t.tempValid = s.tempValid ∧ t.err = s.err)

/-- A step that only responds writes no element. -/
theorem respond_writesOnlyItsElements (i : Instr) (v : Word) (s : State) :
    WritesOnlyItsElements i s (respond v s) :=
  ⟨rfl, fun _ => rfl, fun _ _ _ => rfl, fun _ => rfl, fun _ => ⟨rfl, rfl⟩, fun _ _ => rfl,
    fun _ _ _ => ⟨rfl, rfl, rfl, rfl⟩, fun _ _ => ⟨rfl, rfl⟩, fun _ _ => rfl, fun _ => ⟨rfl, rfl, rfl, rfl, rfl⟩⟩

theorem hostOp_writesOnlyItsElements {i : Instr} {s t : State} (hhost : i.isHostOp = true)
    (hnext : exec i s = .next t) : WritesOnlyItsElements i s t := by
  obtain ⟨-, ⟨v, rfl, -⟩ | ⟨id, rfl, rfl⟩ | ⟨r, g, b, rfl, rfl⟩ | ⟨rfl, -, rfl⟩ | ⟨-, -, rfl⟩⟩ :=
    exec_hostOp_cases hhost hnext
  · exact respond_writesOnlyItsElements i v s
  · have hsnap : ∀ j : Fin 4, Instr.treset id ≠ .treset j.val → (writeSnap s id s.tick).snap[j] = s.snap[j] :=
      fun j hne => writeSnap_getElem_of_ne s s.tick j fun heq => hne (congrArg _ heq)
    refine ⟨writeSnap_params .., fun _ => writeSnap_tick .., fun j hne _ => hsnap j hne, ?_⟩
    simp
  · simp [WritesOnlyItsElements]
  · have hsnap : ∀ j : Fin 4, j ≠ s.params.sensorTimer →
        (s.snap.set s.params.sensorTimer.val s.tick)[j] = s.snap[j] := fun j hne =>
      Vector.getElem_set_ne _ _ fun heq => hne (Fin.ext heq.symm)
    refine ⟨rfl, fun _ => rfl, fun j _ hne => hsnap j fun hj => hne ⟨rfl, hj⟩, ?_⟩
    simp
  · exact respond_writesOnlyItsElements i 1 s

theorem tickEv_writesOnlyItsElements {s t : State} (hnext : exec .tickEv s = .next t) :
    WritesOnlyItsElements .tickEv s t := by
  obtain ⟨-, rfl⟩ | ⟨-, -, rfl⟩ | ⟨-, -, rfl⟩ := execTickEv_cases hnext <;> simp [WritesOnlyItsElements]

theorem cmpEv_writesOnlyItsElements {s t : State} (hnext : exec .cmpEv s = .next t) :
    WritesOnlyItsElements .cmpEv s t := by
  obtain ⟨-, rfl⟩ | ⟨-, -, rfl⟩ | ⟨-, -, rfl⟩ := execCmpEv_cases hnext <;> simp [WritesOnlyItsElements]

theorem bitEv_writesOnlyItsElements {s t : State} (hnext : exec .bitEv s = .next t) :
    WritesOnlyItsElements .bitEv s t := by
  rw [execBitEv_eq hnext]
  simp [WritesOnlyItsElements]

theorem sample_writesOnlyItsElements {lv : Level} {s t : State} (hnext : exec (.sample lv) s = .next t) :
    WritesOnlyItsElements (.sample lv) s t := by
  obtain ⟨hparams, htick, hsnap, hduty, hcnt, hout⟩ := exec_sample_keepsClockAndPwm hnext
  simp [WritesOnlyItsElements, hparams, htick, hsnap, hduty, hcnt, hout]

theorem exec_writesOnlyItsElements {i : Instr} {s t : State} (hreset : i ≠ .reset) (hnext : exec i s = .next t) :
    WritesOnlyItsElements i s t := by
  by_cases hhost : i.isHostOp = true
  · exact hostOp_writesOnlyItsElements hhost hnext
  · cases i with
    | now | treset | telapsed | setduty | poll | gethum | gettemp | geterr => exact absurd rfl hhost
    | reset => exact absurd rfl hreset
    | tickEv => exact tickEv_writesOnlyItsElements hnext
    | cmpEv => exact cmpEv_writesOnlyItsElements hnext
    | bitEv => exact bitEv_writesOnlyItsElements hnext
    | sample lv => exact sample_writesOnlyItsElements hnext

/-- No step writes the configuration (log 4). -/
theorem exec_params {i : Instr} {s t : State} (hnext : exec i s = .next t) : t.params = s.params := by
  by_cases hreset : i = .reset
  · subst hreset
    rw [execReset_eq hnext]
  · exact (exec_writesOnlyItsElements hreset hnext).1

/-! ## The parts of the invariant (R43, R203) -/

theorem ticksInRange_set {s : State} (hticks : TicksInRange s) (id : Nat) (hid : id < Config.nTimers) :
    TicksInRange { s with snap := s.snap.set id s.tick } := by
  obtain ⟨htick, hsnap⟩ := hticks
  refine ⟨htick, fun j => ?_⟩
  show readSnap { s with snap := s.snap.set id s.tick } j.val < tickRange s.params
  rw [← writeSnap_of_valid s id s.tick hid, readSnap_writeSnap s id j.val s.tick hid]
  split
  · exact htick
  · exact hsnap j

theorem ticksInRange_tickSucc {s : State} (hticks : TicksInRange s) :
    TicksInRange { s with tick := tickSucc s.params s.tick } :=
  ⟨tickSucc_lt s.params s.tick, hticks.2⟩

theorem clamp100_le (d : Nat) : clamp100 d ≤ 100 := by
  rw [clamp100_eq]
  exact Nat.min_le_right d 100

/-- In a wait stage both gates are closed. -/
theorem gatesFollowStage_of_wait {t : State} (hen : t.pwmEn = false) (hline : t.lineDrv = false)
    (hidle : t.slState ≠ .idle) (hpulse : t.slState ≠ .reqPulse) : GatesFollowStage t :=
  ⟨iff_of_true hen hidle, iff_of_false (by rw [hline]; nofun) hpulse⟩

/-- In `Idle` PWM is on and the line is released. -/
theorem gatesFollowStage_of_idle {t : State} (hen : t.pwmEn = true) (hline : t.lineDrv = false)
    (hidle : t.slState = .idle) : GatesFollowStage t :=
  ⟨iff_of_false (by rw [hen]; nofun) (not_not.2 hidle), iff_of_false (by rw [hline]; nofun) (by rw [hidle]; nofun)⟩

theorem lineDrv_of_noPulse {s : State} (hgates : GatesFollowStage s) (hpulse : s.slState ≠ .reqPulse) :
    s.lineDrv = false :=
  Bool.eq_false_of_not_eq_true fun hline => hpulse (hgates.2.1 hline)

/-- After the error sequence nothing is trusted past the threshold, and the flags stay ordered (R198). -/
theorem cacheSound_abort (code : ResultCode) {s : State} (hcache : CacheSound s) : CacheSound (abort code s) := by
  obtain ⟨hhum, htemp, -, horder⟩ := hcache
  rw [CacheSound, abort_params, abort_humVal, abort_tempVal, abort_err, abort_humValid, abort_tempValid]
  refine ⟨hhum, htemp, fun hpast => ?_, fun hvalid => ?_⟩
  · exact ⟨if_pos hpast, if_pos hpast⟩
  · unfold validAfterError at hvalid ⊢
    split at hvalid
    · cases hvalid
    · next hbelow => rw [if_neg hbelow]; exact horder hvalid

/-! ## The invariant at reset and over each step -/

theorem stateInv_reset {p : Params} (hvalid : p.Valid) (q : List Stimulus) :
    StateInv { State.reset with params := p, inputs := q } := by
  have hsnap : ∀ i : Fin Config.nTimers, readSnap { State.reset with params := p, inputs := q } i.val = 0 := by
    intro i
    rw [readSnap_eq_getElem]
    simp [State.reset]
  obtain ⟨htick, htick', hper, hper', hreq, hreq', hto⟩ := hvalid
  refine ⟨⟨htick, htick', hper, hper', hreq, hreq', hto⟩,
    ⟨tickRange_pos p, fun i => by rw [hsnap]; exact tickRange_pos p⟩,
    ⟨Nat.zero_le 100, Nat.zero_le 100, Nat.zero_le 100, Nat.zero_le 99⟩, gatesFollowStage_of_idle rfl rfl rfl,
    ⟨hto, hreq, Nat.zero_le 39⟩, ⟨Nat.zero_le 6554, Nat.zero_le 3277, fun _ => ⟨rfl, rfl⟩, nofun⟩⟩

theorem hostOp_keepsInv {i : Instr} {s t : State} (hhost : i.isHostOp = true) (hinv : StateInv s)
    (hnext : exec i s = .next t) : StateInv t := by
  obtain ⟨hvalid, hticks, hpwm, hgates, hcounters, hcache⟩ := hinv
  obtain ⟨-, ⟨v, rfl, -⟩ | ⟨id, -, rfl⟩ | ⟨r, g, b, -, rfl⟩ | ⟨-, -, rfl⟩ | ⟨-, -, rfl⟩⟩ :=
    exec_hostOp_cases hhost hnext
  · exact ⟨hvalid, hticks, hpwm, hgates, hcounters, hcache⟩
  · by_cases hid : id < Config.nTimers
    · rw [writeSnap_of_valid s id s.tick hid]
      exact ⟨hvalid, ticksInRange_set hticks id hid, hpwm, hgates, hcounters, hcache⟩
    · rw [writeSnap_of_invalid s id s.tick hid]
      exact ⟨hvalid, hticks, hpwm, hgates, hcounters, hcache⟩
  · obtain ⟨-, -, -, hcnt⟩ := hpwm
    exact ⟨hvalid, hticks, ⟨clamp100_le r, clamp100_le g, clamp100_le b, hcnt⟩, hgates, hcounters, hcache⟩
  · obtain ⟨-, -, -, -, hreq, -, hto⟩ := id hvalid
    exact ⟨hvalid, ticksInRange_set hticks _ s.params.sensorTimer.isLt, hpwm,
      ⟨iff_of_true rfl nofun, iff_of_true rfl rfl⟩, ⟨hto, hreq, Nat.zero_le _⟩, hcache⟩
  · exact ⟨hvalid, hticks, hpwm, hgates, hcounters, hcache⟩

theorem tickEv_keepsInv {s t : State} (hinv : StateInv s) (hnext : exec .tickEv s = .next t) : StateInv t := by
  obtain ⟨hvalid, hticks, hpwm, hgates, hcounters, hcache⟩ := hinv
  have hticks' := ticksInRange_tickSucc hticks
  obtain ⟨hto, hreq, hidx⟩ := hcounters
  obtain ⟨-, rfl⟩ | ⟨-, hinner, rfl⟩ | ⟨hpulse, -, rfl⟩ := execTickEv_cases hnext
  · exact ⟨hvalid, hticks', hpwm, hgates, ⟨hto, hreq, hidx⟩, hcache⟩
  · exact ⟨hvalid, hticks', hpwm, hgates, ⟨hto, lt_of_le_of_ne hreq hinner, hidx⟩, hcache⟩
  · have hen : s.pwmEn = false := hgates.1.2 (by rw [hpulse]; nofun)
    obtain ⟨-, -, -, -, hreqLow, -, hsensTimeout⟩ := id hvalid
    exact ⟨hvalid, hticks', hpwm, gatesFollowStage_of_wait hen rfl nofun nofun, ⟨hsensTimeout, hreqLow, hidx⟩, hcache⟩

theorem cmpEv_keepsInv {s t : State} (hinv : StateInv s) (hnext : exec .cmpEv s = .next t) : StateInv t := by
  obtain ⟨hvalid, hticks, ⟨hr, hg, hb, hcnt⟩, hgates, hcounters, hcache⟩ := hinv
  obtain ⟨-, rfl⟩ | ⟨-, hbelow, rfl⟩ | ⟨-, -, rfl⟩ := execCmpEv_cases hnext
  · exact ⟨hvalid, hticks, ⟨hr, hg, hb, hcnt⟩, hgates, hcounters, hcache⟩
  · exact ⟨hvalid, hticks, ⟨hr, hg, hb, hbelow⟩, hgates, hcounters, hcache⟩
  · exact ⟨hvalid, hticks, ⟨hr, hg, hb, Nat.zero_le 99⟩, hgates, hcounters, hcache⟩

/-- The abort sequence keeps the invariant, from whatever stage it is taken. -/
theorem abort_keepsInv (code : ResultCode) {s : State} (hinv : StateInv s) : StateInv (abort code s) := by
  obtain ⟨hvalid, hticks, hpwm, -, hcounters, hcache⟩ := hinv
  have hcache' := cacheSound_abort code hcache
  rw [abort_eq] at hcache' ⊢
  exact ⟨hvalid, hticks, hpwm, gatesFollowStage_of_idle rfl rfl rfl, hcounters, hcache'⟩

theorem completion_keepsInv {s : State} (hinv : StateInv s) (hpulse : s.slState ≠ .reqPulse) :
    StateInv (completion s) := by
  obtain habort | ⟨hv, tv, tf, hhv, htv, hsuccess⟩ := completion_shape s
  · rw [habort]
    exact abort_keepsInv _ hinv
  · obtain ⟨hvalid, hticks, hpwm, hgates, hcounters, hcache⟩ := hinv
    rw [hsuccess]
    have htemp : tv.toNat ≤ 3277 := htv.elim (fun hkept => hkept ▸ hcache.2.1) id
    exact ⟨hvalid, hticks, hpwm, gatesFollowStage_of_idle rfl (lineDrv_of_noPulse (s := s) hgates hpulse) rfl, hcounters,
      ⟨hhv, htemp, fun hpast => absurd hpast (Nat.not_lt_zero _), fun _ => rfl⟩⟩

theorem sample_keepsInv {lv : Level} {s t : State} (hinv : StateInv s) (hnext : exec (.sample lv) s = .next t) :
    StateInv t := by
  obtain ⟨hvalid, hticks, hpwm, hgates, hcounters, hcache⟩ := id hinv
  obtain ⟨hto, hreq, hidx⟩ := id hcounters
  obtain ⟨-, -, -, -, -, -, hsensTimeout⟩ := id hvalid
  obtain ⟨hidle, hpulse, hcases⟩ := execSample_stage_cases hnext
  have hen : s.pwmEn = false := hgates.1.2 hidle
  have hline : s.lineDrv = false := lineDrv_of_noPulse hgates hpulse
  obtain ⟨-, rfl⟩ | ⟨-, rfl⟩ | ⟨-, rfl⟩ | ⟨-, rfl⟩ | ⟨-, hinner, rfl⟩ | ⟨-, -, rfl⟩ | ⟨hbelow, rfl⟩ |
    ⟨-, code, -, -, rfl⟩ := hcases
  · exact ⟨hvalid, hticks, hpwm, gatesFollowStage_of_wait hen hline nofun nofun, ⟨hsensTimeout, hreq, hidx⟩, hcache⟩
  · exact ⟨hvalid, hticks, hpwm, gatesFollowStage_of_wait hen hline nofun nofun, ⟨hsensTimeout, hreq, hidx⟩, hcache⟩
  · exact ⟨hvalid, hticks, hpwm, gatesFollowStage_of_wait hen hline nofun nofun,
      ⟨hsensTimeout, hreq, Nat.zero_le 39⟩, hcache⟩
  · exact ⟨hvalid, hticks, hpwm, gatesFollowStage_of_wait hen hline nofun nofun, ⟨hsensTimeout, hreq, hidx⟩, hcache⟩
  · exact ⟨hvalid, hticks, hpwm, gatesFollowStage_of_wait hen hline nofun nofun, ⟨hsensTimeout, hreq, hinner⟩, hcache⟩
  · exact completion_keepsInv (s := { noResponse s with
      frame := storeBit s.frame s.bitIdx (slotBit s.params s.bitCnt) }) hinv hpulse
  · exact ⟨hvalid, hticks, hpwm, hgates, ⟨lt_of_le_of_ne hto hbelow, hreq, hidx⟩, hcache⟩
  · exact abort_keepsInv (s := noResponse s) code hinv

/-- Every step keeps the invariant. -/
theorem exec_keepsInv {i : Instr} {s t : State} (hinv : StateInv s) (hnext : exec i s = .next t) : StateInv t := by
  by_cases hhost : i.isHostOp = true
  · exact hostOp_keepsInv hhost hinv hnext
  · cases i with
    | now | treset | telapsed | setduty | poll | gethum | gettemp | geterr => exact absurd rfl hhost
    | reset => rw [execReset_eq hnext]; exact stateInv_reset hinv.1 s.inputs
    | tickEv => exact tickEv_keepsInv hinv hnext
    | cmpEv => exact cmpEv_keepsInv hinv hnext
    | bitEv => rw [execBitEv_eq hnext]; exact hinv
    | sample lv => exact sample_keepsInv hinv hnext

theorem defaultParams_valid : Params.default.Valid := by
  have hlt := Config.sensorPeriodLessOne.isLt
  refine ⟨by decide, by decide, Nat.le_add_left 1 _, ?_, by decide, by decide, Nat.le_add_left 1 _⟩
  show Config.sensorPeriodLessOne.val + 1 < 2 ^ 32
  omega

/-! ## Responses (R62, R91, R175) -/

/-- The word of every result code but `NotDue`. -/
theorem resultWord_mem {code : ResultCode} (hcode : code ≠ .notDue) :
    ResultCode.word code ∈ [0#32, 2, 3, 4, 5, 6, 7] := by
  cases code with
  | notDue => exact absurd rfl hcode
  | success | timeoutAck0 | timeoutAck1 | timeoutAck2 | timeoutBitHigh | timeoutBitLow | checksumError => decide

/-- The transaction has ended with a response: PWM is on, and the line is released or as it was. -/
def EndsTransaction (s t : State) : Prop :=
  t.slState = .idle ∧ t.pwmEn = true ∧ (t.lineDrv = false ∨ t.lineDrv = s.lineDrv) ∧
    ∃ code, code ≠ ResultCode.notDue ∧ t.rsp = some (ResultCode.word code)

theorem abort_endsTransaction {code : ResultCode} (hcode : code ≠ .notDue) (s : State) :
    EndsTransaction s (abort code s) :=
  ⟨abort_slState code s, abort_pwmEn code s, .inl (abort_lineDrv code s), code, hcode, abort_rsp code s⟩

theorem completion_endsTransaction (s : State) : EndsTransaction s (completion s) := by
  obtain ⟨-, hgood⟩ | ⟨-, hbad⟩ := completion_cases s
  · rw [hgood]
    exact ⟨endSuccess_slState _, endSuccess_pwmEn _, .inr ((endSuccess_lineDrv _).trans (successSequence_lineDrv ..)),
      .success, nofun, endSuccess_rsp _⟩
  · rw [hbad]
    exact abort_endsTransaction (code := .checksumError) nofun s

/-- A `SAMPLE` either stays inside the transaction and does not respond, or ends it with a response. -/
theorem exec_sample_stays_or_ends {lv : Level} {s t : State} (hnext : exec (.sample lv) s = .next t) :
    (t.slState ≠ .idle ∧ t.rsp = none) ∨ EndsTransaction s t := by
  obtain ⟨hbusy, -, ⟨-, rfl⟩ | ⟨-, rfl⟩ | ⟨-, rfl⟩ | ⟨-, rfl⟩ | ⟨-, -, rfl⟩ | ⟨-, -, rfl⟩ | ⟨-, rfl⟩ |
    ⟨-, code, -, hcode, rfl⟩⟩ := execSample_stage_cases hnext
  · exact .inl ⟨nofun, rfl⟩
  · exact .inl ⟨nofun, rfl⟩
  · exact .inl ⟨nofun, rfl⟩
  · exact .inl ⟨nofun, rfl⟩
  · exact .inl ⟨nofun, rfl⟩
  · exact .inr (completion_endsTransaction _)
  · exact .inl ⟨hbusy, rfl⟩
  · exact .inr (abort_endsTransaction hcode (noResponse s))

/-- A `TICK_EV` does not respond and neither opens nor ends a transaction. -/
theorem exec_tickEv_silent {s t : State} (hnext : exec .tickEv s = .next t) :
    t.rsp = none ∧ (t.slState = .idle ↔ s.slState = .idle) := by
  refine ⟨?_, (exec_tickEv_gate hnext).2⟩
  obtain ⟨-, rfl⟩ | ⟨-, -, rfl⟩ | ⟨-, -, rfl⟩ := execTickEv_cases hnext <;> rfl

/-- A `CMP_EV` does not respond and neither opens nor ends a transaction. -/
theorem exec_cmpEv_silent {s t : State} (hnext : exec .cmpEv s = .next t) :
    t.rsp = none ∧ (t.slState = .idle ↔ s.slState = .idle) := by
  refine ⟨?_, (exec_cmpEv_gate hnext).2⟩
  obtain ⟨-, rfl⟩ | ⟨-, -, rfl⟩ | ⟨-, -, rfl⟩ := execCmpEv_cases hnext <;> rfl

/-- A step other than `SAMPLE` and the host operations does not respond. -/
theorem exec_event_rsp {i : Instr} {s t : State} (hhost : i.isHostOp = false) (hsample : ∀ lv, i ≠ .sample lv)
    (hnext : exec i s = .next t) : t.rsp = none := by
  cases i with
  | now | treset | telapsed | setduty | poll | gethum | gettemp | geterr => cases hhost
  | reset => rw [execReset_eq hnext]; rfl
  | tickEv => exact (exec_tickEv_silent hnext).1
  | cmpEv => exact (exec_cmpEv_silent hnext).1
  | bitEv => rw [execBitEv_eq hnext]; rfl
  | sample lv => exact absurd rfl (hsample lv)

/-! ## The obligations -/

/-- Settles O54: the matrix for each step, from what the step can do. -/
theorem accessMatrix : Obligations.AccessMatrix := by
  unfold Obligations.AccessMatrix
  intro i s t hreset hnext
  exact exec_writesOnlyItsElements hreset hnext

/-- Settles O52: the reset state meets the invariant for every admissible configuration, and the default is one. -/
theorem invariantHoldsAtReset : Obligations.InvariantHoldsAtReset := by
  unfold Obligations.InvariantHoldsAtReset
  exact stateInv_reset defaultParams_valid []

/-- Settles O53: taking a stimulus changes no element the invariant speaks of, and the step then run keeps it. -/
theorem stepKeepsInvariant : Obligations.StepKeepsInvariant := by
  unfold Obligations.StepKeepsInvariant
  intro s t hinv hstep
  cases hin : s.inputs with
  | nil =>
    rw [step_of_no_inputs hin, Host.Outcome.next.injEq] at hstep
    rw [← hstep]
    exact hinv
  | cons x rest =>
    cases hdec : decode x with
    | ok i =>
      rw [step_of_decode_ok hin hdec] at hstep
      exact exec_keepsInv (s := withInputs rest s) hinv hstep
    | error why =>
      rw [step_of_decode_error hin hdec] at hstep
      cases hstep

/-- Settles O55: every accepted host operation responds but the `POLL` that opens a transaction, and of the events
only a `SAMPLE` can. -/
theorem responsesComeFromAcceptedOperations : Obligations.ResponsesComeFromAcceptedOperations := by
  unfold Obligations.ResponsesComeFromAcceptedOperations
  intro i s t hnext
  constructor
  · intro hhost
    obtain ⟨-, ⟨v, rfl, hread⟩ | ⟨id, rfl, rfl⟩ | ⟨r, g, b, rfl, rfl⟩ | ⟨rfl, hdue, rfl⟩ | ⟨rfl, hdue, rfl⟩⟩ :=
      exec_hostOp_cases hhost hnext
    · refine iff_of_false nofun fun hpoll => ?_
      obtain ⟨rfl, -⟩ := hpoll
      obtain hread | ⟨id, hread⟩ | hread | hread | hread := hread <;> cases hread
    · exact iff_of_false nofun nofun
    · exact iff_of_false nofun nofun
    · exact iff_of_true rfl ⟨rfl, (sensorDue_eq_true_iff s).1 hdue⟩
    · refine iff_of_false nofun fun hpoll => ?_
      rw [(sensorDue_eq_true_iff s).2 hpoll.2] at hdue
      cases hdue
  · intro hhost hrsp
    by_contra hsample
    exact hrsp (exec_event_rsp hhost (not_exists.1 hsample) hnext)

/-- Settles O44: while a transaction is in progress host operations are refused, and of the events only `SAMPLE` and
`RESET` can lead to `Idle`. -/
theorem onlySampleOrResetEndsTransaction : Obligations.OnlySampleOrResetEndsTransaction := by
  unfold Obligations.OnlySampleOrResetEndsTransaction
  intro i s t hinv hbusy hnext
  obtain ⟨-, -, -, hgates, -, -⟩ := hinv
  by_cases hhost : i.isHostOp = true
  · rw [exec_of_busy hhost hbusy] at hnext
    cases hnext
  · cases i with
    | now | treset | telapsed | setduty | poll | gethum | gettemp | geterr => exact absurd rfl hhost
    | reset =>
      rw [execReset_eq hnext]
      exact ⟨fun _ => ⟨rfl, rfl, .inl ⟨rfl, rfl⟩⟩, fun _ => rfl⟩
    | tickEv =>
      obtain ⟨hrsp, hstage⟩ := exec_tickEv_silent hnext
      exact ⟨fun hidle => absurd (hstage.1 hidle) hbusy, fun _ => hrsp⟩
    | cmpEv =>
      obtain ⟨hrsp, hstage⟩ := exec_cmpEv_silent hnext
      exact ⟨fun hidle => absurd (hstage.1 hidle) hbusy, fun _ => hrsp⟩
    | bitEv =>
      rw [execBitEv_eq hnext]
      exact ⟨fun hidle => absurd hidle hbusy, fun _ => rfl⟩
    | sample lv =>
      obtain ⟨hstays, hrsp⟩ | ⟨hidle, hen, hline, code, hcode, hrsp⟩ := exec_sample_stays_or_ends hnext
      · exact ⟨fun hidle => absurd hidle hstays, fun _ => hrsp⟩
      · obtain ⟨-, hpulse, -⟩ := execSample_stage_cases hnext
        have hreleased : s.lineDrv = false := lineDrv_of_noPulse hgates hpulse
        exact ⟨fun _ => ⟨hen, hline.elim id fun hkept => hkept.trans hreleased,
          .inr ⟨⟨lv, rfl⟩, _, hrsp, resultWord_mem hcode⟩⟩, fun hstays => absurd hidle hstays⟩

end Sys2Proof.Machine
end

section
/-! What later steps can tell apart: no step depends on the working registers left behind (R33, R44, R170, U14). -/

namespace Sys2Proof.Machine

/-! ## What `observable` forgets (R44) -/

/-- The state with the bit timer cleared. -/
def clearBitTimer (s : State) : State := { s with bitCnt := 0 }

/-- The state with all five working registers cleared. -/
def clearWorking (s : State) : State := { s with bitCnt := 0, bitIdx := 0, toCnt := 0, reqCnt := 0, frame := 0 }

theorem observable_of_idle {s : State} (hidle : s.slState = .idle) : observable s = clearWorking s := by
  have hslot : s.slState ≠ .bitWaitLow := by rw [hidle]; nofun
  simp only [observable, if_pos hidle, if_neg hslot]
  rfl

theorem observable_of_slot {s : State} (hslot : s.slState = .bitWaitLow) : observable s = s := by
  have hidle : s.slState ≠ .idle := by rw [hslot]; nofun
  simp only [observable, if_neg hidle, if_pos hslot]

theorem observable_of_noSlot {s : State} (hidle : s.slState ≠ .idle) (hslot : s.slState ≠ .bitWaitLow) :
    observable s = clearBitTimer s := by
  simp only [observable, if_neg hidle, if_neg hslot]
  rfl

theorem observable_clearWorking {s : State} (hidle : s.slState = .idle) :
    observable (clearWorking s) = observable s := by
  rw [observable_of_idle hidle, observable_of_idle (s := clearWorking s) hidle]
  rfl

theorem observable_clearBitTimer {s : State} (hslot : s.slState ≠ .bitWaitLow) :
    observable (clearBitTimer s) = observable s := by
  by_cases hidle : s.slState = .idle
  · rw [observable_of_idle hidle, observable_of_idle (s := clearBitTimer s) hidle]
    rfl
  · rw [observable_of_noSlot hidle hslot, observable_of_noSlot (s := clearBitTimer s) hidle hslot]
    rfl

/-- Two states in `Idle` that differ in working registers alone. -/
theorem observable_eq_of_idle {s u : State} (hs : s.slState = .idle) (hu : u.slState = .idle)
    (heq : clearWorking s = clearWorking u) : observable s = observable u := by
  rw [observable_of_idle hs, observable_of_idle hu, heq]

/-- Two states outside a bit slot that differ in the bit timer alone. -/
theorem observable_eq_of_noSlot {s u : State} (hs : s.slState ≠ .bitWaitLow) (hu : u.slState ≠ .bitWaitLow)
    (heq : clearBitTimer s = clearBitTimer u) : observable s = observable u := by
  rw [← observable_clearBitTimer hs, ← observable_clearBitTimer hu, heq]

/-- No later step can tell two outcomes apart exactly if they agree under `observable`; nothing faults. -/
theorem sameOutcome_iff (a b : Host.Outcome State Fault Refusal) :
    sameOutcome a b ↔ mapNext observable a = mapNext observable b := by
  cases a with
  | fault f => cases f
  | next s => cases b with
    | fault f => cases f
    | next t => simp [sameOutcome]
    | refused r => exact iff_of_false id nofun
  | refused q => cases b with
    | fault f => cases f
    | next t => exact iff_of_false id nofun
    | refused r => simp [sameOutcome]

/-! ## A step in `Idle` -/

theorem writeSnap_clearWorking (s : State) (id v : Nat) :
    writeSnap (clearWorking s) id v = clearWorking (writeSnap s id v) := by
  unfold writeSnap
  split <;> rfl

/-- A host operation reads no working register, and the `POLL` that opens a transaction clears all but the bit
timer. -/
theorem observable_hostEffect_clearWorking (i : Instr) {s : State} (hidle : s.slState = .idle) :
    observable (hostEffect i (clearWorking s)) = observable (hostEffect i s) := by
  cases i with
  | treset id =>
    have hcomm : hostEffect (.treset id) (clearWorking s) = clearWorking (hostEffect (.treset id) s) :=
      congrArg (respond 0) (writeSnap_clearWorking s id s.tick)
    rw [hcomm]
    exact observable_clearWorking ((writeSnap_slState s id s.tick).trans hidle)
  | poll =>
    show observable (if sensorDue s then _ else _) = observable (if sensorDue s then _ else _)
    split
    · rw [openTransaction_eq, openTransaction_eq]
      exact observable_clearBitTimer (s := noResponse { s with
        snap := s.snap.set s.params.sensorTimer.val s.tick, pwmEn := false, lineDrv := true
        slState := .reqPulse, reqCnt := 0, bitIdx := 0, toCnt := 0, frame := 0 }) nofun
    · exact observable_clearWorking (s := respond 1 s) hidle
  | now | telapsed | setduty | gethum | gettemp | geterr =>
    exact observable_clearWorking (s := respond _ { s with duty := _ }) hidle
  | reset | tickEv | cmpEv | bitEv | sample => exact observable_clearWorking hidle

theorem exec_clearWorking_of_idle (i : Instr) {s : State} (hidle : s.slState = .idle) :
    mapNext observable (exec i (clearWorking s)) = mapNext observable (exec i s) := by
  have hidle' : (clearWorking s).slState = .idle := hidle
  by_cases hhost : i.isHostOp = true
  · rw [exec_of_idle hhost hidle, exec_of_idle hhost hidle', mapNext_next, mapNext_next,
      observable_hostEffect_clearWorking i hidle]
  · cases i with
    | now | treset | telapsed | setduty | poll | gethum | gettemp | geterr => exact absurd rfl hhost
    | reset => rfl
    | tickEv =>
      have hpulse : s.slState ≠ .reqPulse := by rw [hidle]; nofun
      rw [exec_tickEv_of_noPulse hpulse, exec_tickEv_of_noPulse (s := clearWorking s) hpulse]
      exact congrArg Host.Outcome.next
        (observable_clearWorking (s := { noResponse s with tick := tickSucc s.params s.tick }) hidle)
    | cmpEv =>
      cases hen : s.pwmEn with
      | false =>
        rw [exec_cmpEv_of_disabled hen, exec_cmpEv_of_disabled (s := clearWorking s) hen]
        exact congrArg Host.Outcome.next (observable_clearWorking (s := noResponse s) hidle)
      | true =>
        rw [exec_cmpEv_of_enabled hen, exec_cmpEv_of_enabled (s := clearWorking s) hen]
        exact congrArg Host.Outcome.next (observable_clearWorking (s := pwmSubCycle (noResponse s)) hidle)
    | bitEv =>
      exact congrArg Host.Outcome.next (observable_eq_of_idle (s := { noResponse (clearWorking s) with bitCnt := 0 + 1 })
        (u := { noResponse s with bitCnt := s.bitCnt + 1 }) hidle hidle rfl)
    | sample lv =>
      rw [exec_sample_of_noWait lv ((wait_eq_none_iff _).2 (.inl hidle)),
        exec_sample_of_noWait lv ((wait_eq_none_iff _).2 (.inl hidle'))]

/-! ## A step inside a transaction, outside a bit slot -/

/-- The match rules of the stages before a slot do not read the bit timer, and the one that opens a slot clears it. -/
theorem observable_sampleMatch_clearBitTimer {s : State} (hslot : s.slState ≠ .bitWaitLow) :
    observable (sampleMatch (clearBitTimer s)) = observable (sampleMatch s) := by
  have hstage' : (clearBitTimer s).slState = s.slState := rfl
  cases hstage : s.slState with
  | idle | reqPulse =>
    simp only [sampleMatch, hstage', hstage]
    exact observable_clearBitTimer hslot
  | waitAck0 =>
    rw [sampleMatch_of_waitAck0 s hstage, sampleMatch_of_waitAck0 (clearBitTimer s) hstage]
    exact observable_clearBitTimer (s := enterStage .waitAck1 s) nofun
  | waitAck1 =>
    rw [sampleMatch_of_waitAck1 s hstage, sampleMatch_of_waitAck1 (clearBitTimer s) hstage]
    exact observable_clearBitTimer (s := enterStage .waitAck2 s) nofun
  | waitAck2 =>
    rw [sampleMatch_of_waitAck2 s hstage, sampleMatch_of_waitAck2 (clearBitTimer s) hstage]
    exact observable_clearBitTimer (s := { enterStage .bitWaitHigh s with bitIdx := 0 }) nofun
  | bitWaitHigh =>
    rw [sampleMatch_of_bitWaitHigh s hstage, sampleMatch_of_bitWaitHigh (clearBitTimer s) hstage]
    rfl
  | bitWaitLow => exact absurd hstage hslot

/-- A miss does not read the bit timer. -/
theorem observable_sampleMiss_clearBitTimer (code : ResultCode) {s : State} (hslot : s.slState ≠ .bitWaitLow) :
    observable (sampleMiss code (clearBitTimer s)) = observable (sampleMiss code s) := by
  by_cases hcap : s.toCnt + 1 = s.params.sensTimeout
  · rw [sampleMiss_of_cap code s hcap, sampleMiss_of_cap code (clearBitTimer s) hcap]
    exact observable_clearBitTimer (s := abort code s) nofun
  · rw [sampleMiss_of_lt code s hcap, sampleMiss_of_lt code (clearBitTimer s) hcap]
    exact observable_clearBitTimer (s := { s with toCnt := s.toCnt + 1 }) hslot

theorem exec_sample_clearBitTimer (lv : Level) {s : State} (hslot : s.slState ≠ .bitWaitLow) :
    mapNext observable (exec (.sample lv) (clearBitTimer s)) = mapNext observable (exec (.sample lv) s) := by
  cases hwait : SlState.wait s.slState with
  | none => rw [exec_sample_of_noWait lv hwait, exec_sample_of_noWait (s := clearBitTimer s) lv hwait]
  | some p =>
    obtain ⟨awaited, code⟩ := p
    have hwait' : SlState.wait (clearBitTimer s).slState = some (awaited, code) := hwait
    by_cases hlv : lv = awaited
    · subst hlv
      rw [exec_sample_of_awaited hwait, exec_sample_of_awaited hwait']
      exact congrArg Host.Outcome.next (observable_sampleMatch_clearBitTimer (s := noResponse s) hslot)
    · rw [exec_sample_of_miss hwait hlv, exec_sample_of_miss hwait' hlv]
      exact congrArg Host.Outcome.next (observable_sampleMiss_clearBitTimer code (s := noResponse s) hslot)

theorem exec_tickEv_clearBitTimer {s : State} (hslot : s.slState ≠ .bitWaitLow) :
    mapNext observable (exec .tickEv (clearBitTimer s)) = mapNext observable (exec .tickEv s) := by
  by_cases hpulse : s.slState = .reqPulse
  · by_cases hlast : s.reqCnt + 1 = s.params.reqLow
    · rw [exec_tickEv_of_lastTick hpulse hlast, exec_tickEv_of_lastTick (s := clearBitTimer s) hpulse hlast]
      exact congrArg Host.Outcome.next (observable_eq_of_noSlot nofun nofun rfl)
    · rw [exec_tickEv_of_innerTick hpulse hlast, exec_tickEv_of_innerTick (s := clearBitTimer s) hpulse hlast]
      exact congrArg Host.Outcome.next (observable_eq_of_noSlot hslot hslot rfl)
  · rw [exec_tickEv_of_noPulse hpulse, exec_tickEv_of_noPulse (s := clearBitTimer s) hpulse]
    exact congrArg Host.Outcome.next (observable_eq_of_noSlot hslot hslot rfl)

theorem exec_clearBitTimer_of_noSlot (i : Instr) {s : State} (hidle : s.slState ≠ .idle)
    (hslot : s.slState ≠ .bitWaitLow) :
    mapNext observable (exec i (clearBitTimer s)) = mapNext observable (exec i s) := by
  by_cases hhost : i.isHostOp = true
  · rw [exec_of_busy hhost hidle, exec_of_busy (s := clearBitTimer s) hhost hidle]
  · cases i with
    | now | treset | telapsed | setduty | poll | gethum | gettemp | geterr => exact absurd rfl hhost
    | reset => rfl
    | tickEv => exact exec_tickEv_clearBitTimer hslot
    | cmpEv =>
      cases hen : s.pwmEn with
      | false =>
        rw [exec_cmpEv_of_disabled hen, exec_cmpEv_of_disabled (s := clearBitTimer s) hen]
        exact congrArg Host.Outcome.next (observable_eq_of_noSlot hslot hslot rfl)
      | true =>
        rw [exec_cmpEv_of_enabled hen, exec_cmpEv_of_enabled (s := clearBitTimer s) hen]
        exact congrArg Host.Outcome.next (observable_eq_of_noSlot hslot hslot rfl)
    | bitEv => exact congrArg Host.Outcome.next (observable_eq_of_noSlot hslot hslot rfl)
    | sample lv => exact exec_sample_clearBitTimer lv hslot

/-- A step answers the observable part of a state as it answers the state. -/
theorem exec_observable (i : Instr) (s : State) :
    mapNext observable (exec i (observable s)) = mapNext observable (exec i s) := by
  by_cases hidle : s.slState = .idle
  · rw [observable_of_idle hidle, exec_clearWorking_of_idle i hidle]
  · by_cases hslot : s.slState = .bitWaitLow
    · rw [observable_of_slot hslot]
    · rw [observable_of_noSlot hidle hslot, exec_clearBitTimer_of_noSlot i hidle hslot]

/-! ## The obligations -/

/-- Settles O59: a step answers a state as it answers its observable part, which the two states share. -/
theorem workingRegistersAreUnobservable : Obligations.WorkingRegistersAreUnobservable := by
  unfold Obligations.WorkingRegistersAreUnobservable
  intro i s u hobs
  rw [sameOutcome_iff, ← exec_observable i s, ← exec_observable i u, hobs]

end Sys2Proof.Machine
end

section
/-! Which steps commute, and which repeat (20_memory.md R70, R77): `CMP_EV` and `BIT_EV` write the PWM and the bit
timer alone, which neither `TICK_EV` nor a host operation reads. -/

namespace Sys2Proof.Machine

/-! ## The events as functions of the state -/

/-- The state after `TICK_EV`. -/
def tickNext (s : State) : State :=
  if s.slState = .reqPulse then countRequestPulse { noResponse s with tick := tickSucc s.params s.tick }
  else { noResponse s with tick := tickSucc s.params s.tick }

/-- The state after `CMP_EV`. -/
def cmpNext (s : State) : State := if s.pwmEn then pwmSubCycle (noResponse s) else noResponse s

/-- The state after `BIT_EV`. -/
def bitNext (s : State) : State := { noResponse s with bitCnt := s.bitCnt + 1 }

theorem exec_tickEv (s : State) : exec .tickEv s = .next (tickNext s) := rfl

theorem exec_cmpEv (s : State) : exec .cmpEv s = .next (cmpNext s) := rfl

theorem exec_bitEv (s : State) : exec .bitEv s = .next (bitNext s) := rfl

/-- The state with another PWM count, other outputs and another bit timer: what `CMP_EV` and `BIT_EV` write. -/
def withPwmAndBitTimer (n : Nat) (out : Rgb Level) (b : Byte) (s : State) : State :=
  { s with pwmCnt := n, pwmOut := out, bitCnt := b }

/-- The step of `N` writes the PWM count, the outputs and the bit timer alone, and does not respond. -/
def WritesPwmAndBitTimer (N : State → State) : Prop :=
  ∀ s, N s = withPwmAndBitTimer (N s).pwmCnt (N s).pwmOut (N s).bitCnt (noResponse s)

theorem cmpNext_writesPwmAndBitTimer : WritesPwmAndBitTimer cmpNext := by
  intro s
  unfold cmpNext
  split <;> rfl

theorem bitNext_writesPwmAndBitTimer : WritesPwmAndBitTimer bitNext := fun _ => rfl

/-- The step of `N` writes the same values in both states. -/
def WritesSame (N : State → State) (s u : State) : Prop :=
  (N u).pwmCnt = (N s).pwmCnt ∧ (N u).pwmOut = (N s).pwmOut ∧ (N u).bitCnt = (N s).bitCnt

/-- What `BIT_EV` writes depends on the bit timer. -/
theorem bitNext_writesSame {s u : State} (hcnt : u.pwmCnt = s.pwmCnt) (hout : u.pwmOut = s.pwmOut)
    (hbit : u.bitCnt = s.bitCnt) : WritesSame bitNext s u :=
  ⟨hcnt, hout, congrArg (· + 1) hbit⟩

/-- What `CMP_EV` writes depends on the PWM, its gate and the duties. -/
theorem cmpNext_writesSame {s u : State} (hen : u.pwmEn = s.pwmEn) (hduty : u.duty = s.duty)
    (hcnt : u.pwmCnt = s.pwmCnt) (hout : u.pwmOut = s.pwmOut) (hbit : u.bitCnt = s.bitCnt) :
    WritesSame cmpNext s u := by
  unfold WritesSame cmpNext
  rw [hen]
  split
  · simp [pwmSubCycle, pwmWraps, hcnt, hout, hduty, hbit]
  · exact ⟨hcnt, hout, hbit⟩

/-! ## Two events (R77) -/

theorem tickNext_withPwmAndBitTimer (n : Nat) (out : Rgb Level) (b : Byte) (s : State) :
    tickNext (withPwmAndBitTimer n out b (noResponse s)) = withPwmAndBitTimer n out b (noResponse (tickNext s)) := by
  by_cases hpulse : s.slState = .reqPulse
  · by_cases hlast : s.reqCnt + 1 = s.params.reqLow
    · simp [tickNext, countRequestPulse, withPwmAndBitTimer, hpulse, hlast]
    · simp [tickNext, countRequestPulse, withPwmAndBitTimer, hpulse, hlast]
  · simp [tickNext, withPwmAndBitTimer, hpulse]

theorem tickNext_comm {N : State → State} (hwrites : WritesPwmAndBitTimer N) {s : State}
    (hsame : WritesSame N s (tickNext s)) : N (tickNext s) = tickNext (N s) := by
  obtain ⟨hcnt, hout, hbit⟩ := hsame
  calc N (tickNext s)
      = withPwmAndBitTimer (N s).pwmCnt (N s).pwmOut (N s).bitCnt (noResponse (tickNext s)) := by
        rw [hwrites (tickNext s), hcnt, hout, hbit]
    _ = tickNext (withPwmAndBitTimer (N s).pwmCnt (N s).pwmOut (N s).bitCnt (noResponse s)) :=
        (tickNext_withPwmAndBitTimer _ _ _ s).symm
    _ = tickNext (N s) := by rw [← hwrites s]

theorem cmpNext_tickNext (s : State) : cmpNext (tickNext s) = tickNext (cmpNext s) := by
  obtain ⟨-, -, -, hduty, hpwm, hen, -, -, hbit, -⟩ := tickEv_writesOnlyItsElements (exec_tickEv s)
  obtain ⟨hcnt, hout⟩ := hpwm nofun
  exact tickNext_comm cmpNext_writesPwmAndBitTimer
    (cmpNext_writesSame (hen nofun nofun) (hduty nofun) hcnt hout (hbit nofun nofun))

theorem bitNext_tickNext (s : State) : bitNext (tickNext s) = tickNext (bitNext s) := by
  obtain ⟨-, -, -, -, hpwm, -, -, -, hbit, -⟩ := tickEv_writesOnlyItsElements (exec_tickEv s)
  obtain ⟨hcnt, hout⟩ := hpwm nofun
  exact tickNext_comm bitNext_writesPwmAndBitTimer (bitNext_writesSame hcnt hout (hbit nofun nofun))

theorem bitNext_cmpNext (s : State) : bitNext (cmpNext s) = cmpNext (bitNext s) := by
  show bitNext (if s.pwmEn then _ else _) = if s.pwmEn then _ else _
  split <;> rfl

theorem run_pair {a b : Instr} {s u v : State} (ha : exec a s = .next u) (hb : exec b u = .next v) :
    run [a, b] s = .next v := by
  rw [run_cons_of_next _ ha, run_cons_of_next _ hb]
  rfl

/-- From every state both orders of the two steps lead to the same state. -/
def BothOrdersAgree (a b : Instr) : Prop := ∀ s, ∃ t, run [a, b] s = .next t ∧ run [b, a] s = .next t

theorem BothOrdersAgree.symm {a b : Instr} (hab : BothOrdersAgree a b) : BothOrdersAgree b a :=
  fun s => (hab s).imp fun _ horders => ⟨horders.2, horders.1⟩

/-- Two steps that complete in every state, with next states that commute. -/
theorem bothOrdersAgree_of_comm {a b : Instr} {A B : State → State} (ha : ∀ s, exec a s = .next (A s))
    (hb : ∀ s, exec b s = .next (B s)) (hcomm : ∀ s, B (A s) = A (B s)) : BothOrdersAgree a b :=
  fun s => ⟨B (A s), run_pair (ha s) (hb _), by rw [hcomm s]; exact run_pair (hb s) (ha _)⟩

theorem tickEv_cmpEv_agree : BothOrdersAgree .tickEv .cmpEv :=
  bothOrdersAgree_of_comm exec_tickEv exec_cmpEv cmpNext_tickNext

theorem tickEv_bitEv_agree : BothOrdersAgree .tickEv .bitEv :=
  bothOrdersAgree_of_comm exec_tickEv exec_bitEv bitNext_tickNext

theorem cmpEv_bitEv_agree : BothOrdersAgree .cmpEv .bitEv :=
  bothOrdersAgree_of_comm exec_cmpEv exec_bitEv bitNext_cmpNext

/-! ## An event and a host operation (R77) -/

/-- A host operation neither reads nor writes what `CMP_EV` and `BIT_EV` write. -/
theorem hostEffect_withPwmAndBitTimer {i : Instr} (hhost : i.isHostOp = true) (n : Nat) (out : Rgb Level) (b : Byte)
    (s : State) :
    hostEffect i (withPwmAndBitTimer n out b (noResponse s)) = withPwmAndBitTimer n out b (hostEffect i s) := by
  cases i with
  | treset id =>
    show respond 0 (writeSnap (withPwmAndBitTimer n out b (noResponse s)) id s.tick) =
      withPwmAndBitTimer n out b (respond 0 (writeSnap s id s.tick))
    unfold writeSnap
    split <;> rfl
  | poll =>
    show (if sensorDue s then _ else _) = withPwmAndBitTimer n out b (if sensorDue s then _ else _)
    split
    · rw [openTransaction_eq, openTransaction_eq]; rfl
    · rfl
  | now | telapsed | setduty | gethum | gettemp | geterr => rfl
  | reset | tickEv | cmpEv | bitEv | sample => cases hhost

/-- `e` completes in every state, and in this state commutes with `i` up to the response port; `i` responds alike. -/
theorem exists_commuting_runs {e i : Instr} {N : State → State} (he : ∀ s, exec e s = .next (N s)) {s : State}
    (hhost : i.isHostOp = true) (hidle : s.slState = .idle) (hidle' : (N s).slState = .idle)
    (hsilent : State.silent (N (hostEffect i s)) = State.silent (hostEffect i (N s)))
    (hrsp : (hostEffect i (N s)).rsp = (hostEffect i s).rsp) :
    ∃ t u v, exec i s = .next t ∧ run [i, e] s = .next u ∧ run [e, i] s = .next v ∧
      State.silent u = State.silent v ∧ v.rsp = t.rsp :=
  ⟨_, _, _, exec_of_idle hhost hidle, run_pair (exec_of_idle hhost hidle) (he _),
    run_pair (he s) (exec_of_idle hhost hidle'), hsilent, hrsp⟩

theorem exists_commuting_runs_of_writes {e i : Instr} {N : State → State} (he : ∀ s, exec e s = .next (N s))
    (hwrites : WritesPwmAndBitTimer N) {s : State} (hhost : i.isHostOp = true) (hidle : s.slState = .idle)
    (hsame : WritesSame N s (hostEffect i s)) :
    ∃ t u v, exec i s = .next t ∧ run [i, e] s = .next u ∧ run [e, i] s = .next v ∧
      State.silent u = State.silent v ∧ v.rsp = t.rsp := by
  obtain ⟨hcnt, hout, hbit⟩ := hsame
  have hafter : N (hostEffect i s) =
      withPwmAndBitTimer (N s).pwmCnt (N s).pwmOut (N s).bitCnt (noResponse (hostEffect i s)) := by
    rw [hwrites (hostEffect i s), hcnt, hout, hbit]
  have hbefore : hostEffect i (N s) =
      withPwmAndBitTimer (N s).pwmCnt (N s).pwmOut (N s).bitCnt (hostEffect i s) := by
    conv_lhs => rw [hwrites s]
    exact hostEffect_withPwmAndBitTimer hhost _ _ _ s
  have hidle' : (N s).slState = .idle := by rw [hwrites s]; exact hidle
  refine exists_commuting_runs he hhost hidle hidle' ?_ ?_
  · rw [hafter, hbefore]; rfl
  · rw [hbefore]; rfl

theorem ne_of_isHostOp {i j : Instr} (hi : i.isHostOp = true) (hj : j.isHostOp = false) : i ≠ j := by
  rintro rfl
  rw [hi] at hj
  cases hj

theorem hostEffect_keepsPwmAndBitTimer {i : Instr} {s : State} (hhost : i.isHostOp = true)
    (hidle : s.slState = .idle) :
    (hostEffect i s).pwmCnt = s.pwmCnt ∧ (hostEffect i s).pwmOut = s.pwmOut ∧
      (hostEffect i s).bitCnt = s.bitCnt := by
  obtain ⟨-, -, -, -, hpwm, -, -, -, hbit, -⟩ := hostOp_writesOnlyItsElements hhost (exec_of_idle hhost hidle)
  obtain ⟨hcnt, hout⟩ := hpwm (ne_of_isHostOp hhost rfl)
  exact ⟨hcnt, hout, hbit (fun lv => ne_of_isHostOp hhost rfl) (ne_of_isHostOp hhost rfl)⟩

/-- Only the `POLL` that opens a transaction turns the gate, and only `SETDUTY` writes the duties. -/
theorem hostEffect_keepsGateAndDuty {i : Instr} {s : State} (hhost : i.isHostOp = true) (hidle : s.slState = .idle)
    (hsetduty : ∀ r g b, i ≠ .setduty r g b) (hopens : ¬ (i = .poll ∧ SensorIsDue s)) :
    (hostEffect i s).pwmEn = s.pwmEn ∧ (hostEffect i s).duty = s.duty := by
  obtain ⟨-, -, -, hduty, -, hen, -⟩ := hostOp_writesOnlyItsElements hhost (exec_of_idle hhost hidle)
  refine ⟨?_, hduty hsetduty⟩
  by_cases hpoll : i = .poll
  · subst hpoll
    have hnext := exec_poll_of_notDue hidle fun hdue => hopens ⟨rfl, hdue⟩
    rw [exec_of_idle hhost hidle, Host.Outcome.next.injEq] at hnext
    rw [hnext]
    rfl
  · exact hen (fun lv => ne_of_isHostOp hhost rfl) hpoll

theorem tickNext_of_idle {s : State} (hidle : s.slState = .idle) :
    tickNext s = { noResponse s with tick := tickSucc s.params s.tick } :=
  if_neg (by rw [hidle]; nofun)

/-! ## Repeated writes (R70) -/

theorem writeSnap_writeSnap (s : State) (id v : Nat) : writeSnap (writeSnap s id v) id v = writeSnap s id v := by
  by_cases hid : id < Config.nTimers
  · rw [writeSnap_of_valid s id v hid, writeSnap_of_valid _ id v hid, Vector.set_set]
  · rw [writeSnap_of_invalid s id v hid, writeSnap_of_invalid s id v hid]

/-- Writing a snapshot does not depend on the response port. -/
theorem respond_writeSnap_respond (w : Word) (s : State) (id v : Nat) :
    respond w (writeSnap (respond w s) id v) = respond w (writeSnap s id v) := by
  unfold writeSnap
  split <;> rfl

/-! ## The obligations -/

/-- Settles O56: the three pairs of different events commute, and each event commutes with itself. -/
theorem eventsCommute : Obligations.EventsCommute := by
  unfold Obligations.EventsCommute
  intro a b s ha hb
  simp only [List.mem_cons, List.not_mem_nil, or_false] at ha hb
  suffices hagree : BothOrdersAgree a b from hagree s
  obtain rfl | rfl | rfl := ha <;> obtain rfl | rfl | rfl := hb
  · exact bothOrdersAgree_of_comm exec_tickEv exec_tickEv fun _ => rfl
  · exact tickEv_cmpEv_agree
  · exact tickEv_bitEv_agree
  · exact tickEv_cmpEv_agree.symm
  · exact bothOrdersAgree_of_comm exec_cmpEv exec_cmpEv fun _ => rfl
  · exact cmpEv_bitEv_agree
  · exact tickEv_bitEv_agree.symm
  · exact cmpEv_bitEv_agree.symm
  · exact bothOrdersAgree_of_comm exec_bitEv exec_bitEv fun _ => rfl

/-- Settles O57: what the event writes the operation neither reads nor writes, and conversely. -/
theorem eventsCommuteWithHostOperations : Obligations.EventsCommuteWithHostOperations := by
  unfold Obligations.EventsCommuteWithHostOperations
  intro e i s hhost hidle hpair
  obtain ⟨hcnt, hout, hbit⟩ := hostEffect_keepsPwmAndBitTimer hhost hidle
  obtain rfl | ⟨rfl, hsetduty, hopens⟩ | ⟨rfl, hreads⟩ := hpair
  · exact exists_commuting_runs_of_writes exec_bitEv bitNext_writesPwmAndBitTimer hhost hidle
      (bitNext_writesSame hcnt hout hbit)
  · obtain ⟨hen, hduty⟩ := hostEffect_keepsGateAndDuty hhost hidle hsetduty hopens
    exact exists_commuting_runs_of_writes exec_cmpEv cmpNext_writesPwmAndBitTimer hhost hidle
      (cmpNext_writesSame hen hduty hcnt hout hbit)
  · have htick := tickNext_of_idle hidle
    have hidle' : (tickNext s).slState = .idle := by rw [htick]; exact hidle
    have hafter : (hostEffect i s).slState = .idle := by
      obtain ⟨r, g, b, rfl⟩ | rfl | rfl | rfl := hreads <;> exact hidle
    refine exists_commuting_runs exec_tickEv hhost hidle hidle' ?_ ?_
    · rw [tickNext_of_idle hafter, htick]
      obtain ⟨r, g, b, rfl⟩ | rfl | rfl | rfl := hreads <;> rfl
    · rw [htick]
      obtain ⟨r, g, b, rfl⟩ | rfl | rfl | rfl := hreads <;> rfl

/-- Settles O58: the second write finds the same `TICK`, the same operands and an idle state. -/
theorem repeatedWritesAreIdempotent : Obligations.RepeatedWritesAreIdempotent := by
  unfold Obligations.RepeatedWritesAreIdempotent
  intro i s t hwrite hnext
  obtain ⟨id, rfl⟩ | ⟨r, g, b, rfl⟩ := hwrite
  · obtain ⟨hidle, rfl⟩ := hostOp_inv ((exec_treset id s).symm.trans hnext)
    have hidle' : (respond 0 (writeSnap s id s.tick)).slState = .idle := (writeSnap_slState s id s.tick).trans hidle
    rw [exec_treset_of_idle _ id hidle', respond_tick, writeSnap_tick, respond_writeSnap_respond, writeSnap_writeSnap]
  · obtain ⟨hidle, rfl⟩ := hostOp_inv ((exec_setduty r g b s).symm.trans hnext)
    exact (exec_setduty r g b _).trans (hostOp_of_idle _ _ hidle)

end Sys2Proof.Machine
end

section
/-! The family 40_tickclock_timerbank on runs: `TICK` and the elapsed time count the `TICK_EV` steps (R115, R116). -/

namespace Sys2Proof.Machine

/-! ## Induction over a run -/

/-- What each step `Q` allows carries from one past of the run to the next holds at the end of the run. -/
theorem run_keeps {P : List Instr → State → Prop} {Q : Instr → Prop}
    (hstep : ∀ {past i s t}, Q i → P past s → exec i s = .next t → P (past ++ [i]) t)
    {is past : List Instr} {s t : State} (hall : ∀ i ∈ is, Q i) (hstart : P past s) (hrun : run is s = .next t) :
    P (past ++ is) t := by
  induction is generalizing past s with
  | nil =>
    cases hrun
    rwa [List.append_nil]
  | cons i is ih =>
    obtain ⟨u, hexec, hrest⟩ := (run_cons_eq_next_iff i is s t).1 hrun
    obtain ⟨hi, his⟩ := List.forall_mem_cons.1 hall
    rw [List.append_cons]
    exact ih his (hstep hi hstart hexec) hrest

theorem tickCount_append (is js : List Instr) : tickCount (is ++ js) = tickCount is + tickCount js :=
  List.count_append

theorem tickCount_of_ne {i : Instr} (hi : i ≠ .tickEv) : tickCount [i] = 0 := List.count_singleton.trans (by simp [hi])

/-! ## `TICK` -/

theorem exec_tickEv_tick {s t : State} (hnext : exec .tickEv s = .next t) : t.tick = tickSucc s.params s.tick := by
  obtain ⟨-, rfl⟩ | ⟨-, -, rfl⟩ | ⟨-, -, rfl⟩ := execTickEv_cases hnext <;> rfl

/-- Without a `RESET` a step adds its number of `TICK_EV` steps to `TICK` (R115). -/
theorem exec_tick {i : Instr} {s t : State} (hreset : i ≠ .reset) (htick : s.tick < tickRange s.params)
    (hnext : exec i s = .next t) : t.tick = (s.tick + tickCount [i]) % tickRange s.params := by
  by_cases hi : i = .tickEv
  · subst hi
    exact exec_tickEv_tick hnext
  · obtain ⟨-, hkept, -⟩ := exec_writesOnlyItsElements hreset hnext
    rw [hkept hi, tickCount_of_ne hi, Nat.add_zero, Nat.mod_eq_of_lt htick]

/-! ## The elapsed time of a timer -/

theorem restartsTimer_eq_false_iff (id : Nat) (i : Instr) (s : State) :
    restartsTimer id i s = false ↔
      i ≠ .reset ∧ i ≠ .treset id ∧ ¬ (i = .poll ∧ id = s.params.sensorTimer.val ∧ sensorDue s = true) := by
  simp [restartsTimer, and_assoc]

theorem elapsed_lt (s : State) (id : Nat) : elapsed s id < tickRange s.params :=
  Nat.mod_lt _ (tickRange_pos s.params)

theorem elapsed_congr {s t : State} (hparams : t.params = s.params) (htick : t.tick = s.tick) (id : Nat)
    (hsnap : readSnap t id = readSnap s id) : elapsed t id = elapsed s id := by
  rw [elapsed, elapsed, hparams, htick, hsnap]

/-- A step that does not restart the timer leaves its snapshot. -/
theorem readSnap_of_noRestart {id : Nat} {i : Instr} {s t : State} (hid : id < Config.nTimers)
    (hkeep : restartsTimer id i s = false) (hnext : exec i s = .next t) : readSnap t id = readSnap s id := by
  obtain ⟨hreset, htreset, hpoll⟩ := (restartsTimer_eq_false_iff id i s).1 hkeep
  by_cases hopens : i = .poll ∧ id = s.params.sensorTimer.val
  · obtain ⟨rfl, hsensor⟩ := hopens
    obtain ⟨-, ⟨hdue, -⟩ | ⟨-, rfl⟩⟩ := execPoll_cases hnext
    · exact absurd ⟨rfl, hsensor, hdue⟩ hpoll
    · rfl
  · obtain ⟨-, -, hsnap, -⟩ := exec_writesOnlyItsElements hreset hnext
    have hkept := hsnap ⟨id, hid⟩ htreset fun h => hopens ⟨h.1, congrArg Fin.val h.2⟩
    rwa [← readSnap_eq_getElem, ← readSnap_eq_getElem] at hkept

/-- A step that does not restart the timer adds its number of `TICK_EV` steps to the elapsed time (R116). -/
theorem elapsed_exec {id : Nat} {i : Instr} {s t : State} (hid : id < Config.nTimers)
    (hkeep : restartsTimer id i s = false) (hnext : exec i s = .next t) :
    elapsed t id = (elapsed s id + tickCount [i]) % tickRange s.params := by
  have hsnap := readSnap_of_noRestart hid hkeep hnext
  by_cases hi : i = .tickEv
  · subst hi
    rw [elapsed, exec_params hnext, exec_tickEv_tick hnext, hsnap, subW_tickSucc]
    rfl
  · obtain ⟨-, htick, -⟩ :=
      exec_writesOnlyItsElements ((restartsTimer_eq_false_iff id i s).1 hkeep).1 hnext
    rw [elapsed_congr (exec_params hnext) (htick hi) id hsnap, tickCount_of_ne hi, Nat.add_zero,
      Nat.mod_eq_of_lt (elapsed_lt s id)]

theorem neverRestarts_cons_iff {id : Nat} {i : Instr} {s u : State} (is : List Instr) (hexec : exec i s = .next u) :
    neverRestarts id (i :: is) s = true ↔ restartsTimer id i s = false ∧ neverRestarts id is u = true := by
  simp [neverRestarts, hexec]

/-- Over a run that does not restart the timer, its elapsed time grows by the number of `TICK_EV` steps (R116). -/
theorem elapsed_run {id : Nat} (hid : id < Config.nTimers) {is : List Instr} {s t : State}
    (hnever : neverRestarts id is s = true) (hrun : run is s = .next t) :
    t.params = s.params ∧ elapsed t id = (elapsed s id + tickCount is) % tickRange s.params := by
  induction is generalizing s with
  | nil =>
    cases hrun
    exact ⟨rfl, (Nat.mod_eq_of_lt (elapsed_lt _ id)).symm⟩
  | cons i is ih =>
    obtain ⟨u, hexec, hrest⟩ := (run_cons_eq_next_iff i is s t).1 hrun
    obtain ⟨hkeep, hlater⟩ := (neverRestarts_cons_iff is hexec).1 hnever
    obtain ⟨hparams, helapsed⟩ := ih hlater hrest
    refine ⟨hparams.trans (exec_params hexec), ?_⟩
    rw [helapsed, elapsed_exec hid hkeep hexec, exec_params hexec, Nat.mod_add_mod, Nat.add_assoc,
      ← tickCount_append, List.singleton_append]

/-! ## The obligations -/

/-- Settles O20: each step adds its own `TICK_EV` count, and the sums agree modulo `2^TICK_W`. -/
theorem tickCountsTickEvents : Obligations.TickCountsTickEvents := by
  unfold Obligations.TickCountsTickEvents
  intro is s t htick hreset hrun
  have hcount : t.params = s.params ∧ t.tick = (s.tick + tickCount is) % tickRange s.params := by
    refine run_keeps (past := [])
      (P := fun past u => u.params = s.params ∧ u.tick = (s.tick + tickCount past) % tickRange s.params)
      (Q := fun i => i ≠ .reset) ?_ (fun i hi heq => hreset (heq ▸ hi)) ⟨rfl, (Nat.mod_eq_of_lt htick).symm⟩ hrun
    intro past i u v hi hu hnext
    obtain ⟨hparams, hu⟩ := hu
    have hlt : u.tick < tickRange u.params := by rw [hu, hparams]; exact Nat.mod_lt _ (tickRange_pos _)
    refine ⟨(exec_params hnext).trans hparams, ?_⟩
    rw [exec_tick hi hlt hnext, hparams, hu, Nat.mod_add_mod, tickCount_append, Nat.add_assoc]
  exact hcount.2

/-- Settles O21: `TRESET` sets the elapsed time to 0, the run adds its `TICK_EV` steps, and `TELAPSED` reads it. -/
theorem elapsedCountsTicks : Obligations.ElapsedCountsTicks := by
  unfold Obligations.ElapsedCountsTicks
  intro id is s u t hid hreset hnever hrun
  obtain ⟨-, rfl⟩ := hostOp_inv ((exec_treset id s).symm.trans hreset)
  have hzero : elapsed (respond 0 (writeSnap s id s.tick)) id = 0 := by
    rw [elapsed_respond, elapsed, readSnap_writeSnap s id id s.tick hid, if_pos rfl, writeSnap_tick, subW_self]
  obtain ⟨w, hrun, hlast⟩ := (run_append_eq_next_iff is [.telapsed id] _ t).1 hrun
  obtain ⟨hparams, helapsed⟩ := elapsed_run hid hnever hrun
  obtain ⟨v, hexec, hend⟩ := (run_cons_eq_next_iff _ _ _ _).1 hlast
  cases hend
  obtain ⟨-, rfl⟩ := hostOp_inv ((exec_telapsed id w).symm.trans hexec)
  rw [respond_rsp, if_pos hid, helapsed, hzero, Nat.zero_add, respond_params, writeSnap_params]
  rfl

end Sys2Proof.Machine
end

section
/-! The family 41_pwm: the steady waveform and its start, the counted intervals, a duty changed in mid-cycle, the
first cycle after `RESET`, and the suspension during a transaction (R135 to R139). -/

namespace Sys2Proof.Machine

/-! ## The waveform (R135, R136) -/

/-- The waveform reads the outputs, the count and the duties alone. -/
theorem waveform_congr {s t : State} (hout : t.pwmOut = s.pwmOut) (hcnt : t.pwmCnt = s.pwmCnt)
    (hduty : t.duty = s.duty) (hwave : Waveform s) : Waveform t := by
  intro c
  rw [hout, hcnt, hduty]
  exact hwave c

/-- The outputs that the wrap leaves are the waveform's at count 0. -/
theorem waveform_of_wrap {t : State} (hcnt : t.pwmCnt = 0)
    (hout : t.pwmOut = ⟨t.duty.r != 0, t.duty.g != 0, t.duty.b != 0⟩) : Waveform t := by
  have hpos : ∀ d : Nat, (d != 0) = decide (0 < d) := fun d => by cases d <;> rfl
  intro c
  rw [hcnt, hout]
  cases c <;> exact hpos _

/-- Clearing at the match turns the waveform's level at one count into its level at the next. -/
theorem clearAtMatch_waveform (n d : Nat) : clearAtMatch (n + 1) d (decide (n < d)) = decide (n + 1 < d) := by
  rw [clearAtMatch_eq, Bool.eq_iff_iff]
  simp only [Bool.and_eq_true, decide_eq_true_eq, bne_iff_ne, ne_eq]
  omega

theorem waveform_cmpEv {s t : State} (hwave : Waveform s) (hnext : exec .cmpEv s = .next t) : Waveform t := by
  obtain ⟨-, rfl⟩ | ⟨-, -, rfl⟩ | ⟨-, -, rfl⟩ := execCmpEv_cases hnext
  · exact hwave
  · intro c
    show Rgb.get (Rgb.zipWith (clearAtMatch (s.pwmCnt + 1)) s.duty s.pwmOut) c =
      decide (s.pwmCnt + 1 < Rgb.get s.duty c)
    rw [rgb_get_zipWith, hwave c, clearAtMatch_waveform]
  · exact waveform_of_wrap rfl rfl

/-! ## Compare events before the wrap (R135, R137) -/

/-- Over `k` compare events that do not wrap, a channel goes off at its match and is otherwise left alone. -/
theorem run_cmpEv_before_wrap {s : State} (hen : s.pwmEn = true) {k : Nat} (hk : s.pwmCnt + k ≤ 99) :
    ∃ t, run (List.replicate k .cmpEv) s = .next t ∧ t.pwmEn = true ∧ t.duty = s.duty ∧ t.pwmCnt = s.pwmCnt + k ∧
      ∀ c, Rgb.get t.pwmOut c =
        (Rgb.get s.pwmOut c && !decide (s.pwmCnt < Rgb.get s.duty c ∧ Rgb.get s.duty c ≤ s.pwmCnt + k)) := by
  induction k with
  | zero =>
    refine ⟨s, rfl, hen, rfl, rfl, fun c => ?_⟩
    have hempty : ¬ (s.pwmCnt < Rgb.get s.duty c ∧ Rgb.get s.duty c ≤ s.pwmCnt + 0) := by omega
    rw [decide_eq_false hempty, Bool.not_false, Bool.and_true]
  | succ k ih =>
    obtain ⟨t, hrun, hen', hduty, hcnt, hout⟩ := ih (by omega)
    have hlt : (noResponse t).pwmCnt < 99 := by rw [noResponse_pwmCnt, hcnt]; omega
    refine ⟨pwmSubCycle (noResponse t), ?_, hen', hduty, ?_, fun c => ?_⟩
    · rw [List.replicate_succ', run_append_of_next _ hrun, run_cons_of_next _ (exec_cmpEv_of_enabled hen')]
      rfl
    · rw [pwmSubCycle_of_lt _ hlt]
      exact congrArg (· + 1) hcnt
    · rw [pwmSubCycle_of_lt _ hlt]
      show Rgb.get (Rgb.zipWith (clearAtMatch (t.pwmCnt + 1)) t.duty t.pwmOut) c = _
      rw [rgb_get_zipWith, clearAtMatch_eq, hout c, hduty, hcnt, Bool.eq_iff_iff]
      simp only [Bool.and_eq_true, Bool.not_eq_true', decide_eq_false_iff_not, bne_iff_ne, ne_eq, and_assoc]
      exact and_congr_right fun _ => by omega

/-- After the wrap and `k` more compare events the count is `k` and exactly the channels with a duty above `k` are
asserted (R135). -/
theorem run_cmpEv_from_wrap {s : State} (hen : s.pwmEn = true) (hcnt : s.pwmCnt = 99) {k : Nat} (hk : k < 100) :
    ∃ t, run (List.replicate (k + 1) .cmpEv) s = .next t ∧ t.pwmCnt = k ∧
      ∀ c, Rgb.get t.pwmOut c = decide (k < Rgb.get s.duty c) := by
  have hwrap : pwmSubCycle (noResponse s) = { noResponse s with
      pwmCnt := 0, pwmOut := ⟨s.duty.r != 0, s.duty.g != 0, s.duty.b != 0⟩ } :=
    pwmSubCycle_of_ge (noResponse s) (le_of_eq hcnt.symm)
  have hwave : Waveform (pwmSubCycle (noResponse s)) := by
    rw [hwrap]; exact waveform_of_wrap rfl rfl
  have hzero : (pwmSubCycle (noResponse s)).pwmCnt = 0 := by rw [hwrap]
  obtain ⟨t, hrun, -, -, hcnt', hout⟩ := run_cmpEv_before_wrap (s := pwmSubCycle (noResponse s)) hen (k := k) (by omega)
  refine ⟨t, ?_, by rw [hcnt', hzero, Nat.zero_add], fun c => ?_⟩
  · rw [List.replicate_succ, run_cons_of_next _ (exec_cmpEv_of_enabled hen), hrun]
  · rw [hout c, hwave c, hzero, Nat.zero_add, Bool.eq_iff_iff]
    simp only [Bool.and_eq_true, Bool.not_eq_true', decide_eq_false_iff_not, decide_eq_true_eq]
    show 0 < Rgb.get s.duty c ∧ ¬ (0 < Rgb.get s.duty c ∧ Rgb.get s.duty c ≤ k) ↔ k < Rgb.get s.duty c
    omega

theorem length_filter_range_lt (n d : Nat) :
    ((List.range n).filter fun k => decide (k < d)).length = min n d := by
  induction n with
  | zero => rw [Nat.zero_min]; rfl
  | succ n ih =>
    rw [List.range_succ, List.filter_append, List.length_append, ih]
    by_cases hn : n < d
    · rw [List.filter_singleton, decide_eq_true hn]
      simp only [cond_true, List.length_singleton]
      omega
    · rw [List.filter_singleton, decide_eq_false hn]
      simp only [cond_false, List.length_nil]
      omega

/-! ## The first cycle after `RESET` (R138) -/

/-- Nothing is asserted, and the count is at most the number of compare events seen. -/
def OffBeforeWrap (past : List Instr) (u : State) : Prop :=
  past.count .cmpEv ≤ 99 → u.pwmOut = ⟨false, false, false⟩ ∧ u.pwmCnt ≤ past.count .cmpEv

theorem offBeforeWrap_cmpEv {past : List Instr} {s t : State} (hoff : OffBeforeWrap past s)
    (hnext : exec .cmpEv s = .next t) : OffBeforeWrap (past ++ [.cmpEv]) t := by
  intro hcount
  have hsum : (past ++ [Instr.cmpEv]).count .cmpEv = past.count .cmpEv + 1 := List.count_append
  rw [hsum] at hcount ⊢
  obtain ⟨hout, hcnt⟩ := hoff (by omega)
  obtain ⟨-, rfl⟩ | ⟨-, -, rfl⟩ | ⟨-, hwrap, -⟩ := execCmpEv_cases hnext
  · exact ⟨hout, Nat.le_succ_of_le hcnt⟩
  · refine ⟨?_, Nat.succ_le_succ hcnt⟩
    show Rgb.zipWith (clearAtMatch (s.pwmCnt + 1)) s.duty s.pwmOut = _
    rw [hout]
    simp only [Rgb.zipWith, clearAtMatch_eq, Bool.false_and]
  · omega

theorem offBeforeWrap_exec {past : List Instr} {i : Instr} {s t : State} (hoff : OffBeforeWrap past s)
    (hnext : exec i s = .next t) : OffBeforeWrap (past ++ [i]) t := by
  by_cases hcmp : i = .cmpEv
  · subst hcmp
    exact offBeforeWrap_cmpEv hoff hnext
  · intro hcount
    have hsum : (past ++ [i]).count .cmpEv = past.count .cmpEv := by
      rw [List.count_append, List.count_singleton, if_neg (by simpa using hcmp), Nat.add_zero]
    rw [hsum] at hcount ⊢
    obtain ⟨hout, hcnt⟩ := hoff hcount
    by_cases hreset : i = .reset
    · subst hreset
      rw [execReset_eq hnext]
      exact ⟨rfl, Nat.zero_le _⟩
    · obtain ⟨-, -, -, -, hpwm, -⟩ := exec_writesOnlyItsElements hreset hnext
      obtain ⟨hcnt', hout'⟩ := hpwm hcmp
      rw [hcnt', hout']
      exact ⟨hout, hcnt⟩

/-! ## Suspension during a transaction (R139) -/

theorem isTransactionEvent_cases {i : Instr} (hi : isTransactionEvent i = true) :
    (∃ lv, i = .sample lv) ∨ i = .tickEv ∨ i = .cmpEv ∨ i = .bitEv := by
  cases i with
  | now | treset | telapsed | setduty | poll | gethum | gettemp | geterr | reset => cases hi
  | sample lv => exact .inl ⟨lv, rfl⟩
  | tickEv => exact .inr (.inl rfl)
  | cmpEv => exact .inr (.inr (.inl rfl))
  | bitEv => exact .inr (.inr (.inr rfl))

/-- From `Idle` no event leads into a transaction. -/
theorem idle_of_transactionEvent {i : Instr} {s t : State} (hi : isTransactionEvent i = true)
    (hidle : s.slState = .idle) (hnext : exec i s = .next t) : t.slState = .idle := by
  obtain ⟨lv, rfl⟩ | rfl | rfl | rfl := isTransactionEvent_cases hi
  · exact absurd hidle (execSample_stage_cases hnext).1
  · exact (exec_tickEv_silent hnext).2.2 hidle
  · exact (exec_cmpEv_silent hnext).2.2 hidle
  · rw [execBitEv_eq hnext]; exact hidle

/-- The PWM and the duties are as before. -/
def KeepsPwm (s t : State) : Prop := t.pwmCnt = s.pwmCnt ∧ t.pwmOut = s.pwmOut ∧ t.duty = s.duty

/-- Inside a transaction the gate is off and no event touches the PWM. -/
theorem keepsPwm_of_transactionEvent {i : Instr} {s t : State} (hi : isTransactionEvent i = true)
    (hinv : StateInv s) (hbusy : s.slState ≠ .idle) (hnext : exec i s = .next t) : KeepsPwm s t := by
  obtain ⟨-, -, -, ⟨hgate, -⟩, -, -⟩ := hinv
  have hen : s.pwmEn = false := hgate.2 hbusy
  obtain ⟨lv, rfl⟩ | rfl | rfl | rfl := isTransactionEvent_cases hi
  · obtain ⟨-, -, -, hduty, hcnt, hout⟩ := exec_sample_keepsClockAndPwm hnext
    exact ⟨hcnt, hout, hduty⟩
  · obtain ⟨-, -, -, hduty, hpwm, -⟩ := tickEv_writesOnlyItsElements hnext
    exact ⟨(hpwm nofun).1, (hpwm nofun).2, hduty nofun⟩
  · rw [exec_cmpEv_of_disabled hen] at hnext
    cases hnext
    exact ⟨rfl, rfl, rfl⟩
  · rw [execBitEv_eq hnext]
    exact ⟨rfl, rfl, rfl⟩

/-! ## The obligations -/

/-- Settles O24: `CMP_EV` moves the waveform on by one count, `RESET` starts an empty one, and no other step but
`SETDUTY` writes what the waveform reads. -/
theorem waveformKeptByAllButSetduty : Obligations.WaveformKeptByAllButSetduty := by
  unfold Obligations.WaveformKeptByAllButSetduty
  intro i s t _ hwave hsetduty hnext
  by_cases hcmp : i = .cmpEv
  · subst hcmp
    exact waveform_cmpEv hwave hnext
  · by_cases hreset : i = .reset
    · subst hreset
      rw [execReset_eq hnext]
      exact waveform_of_wrap rfl rfl
    · obtain ⟨-, -, -, hduty, hpwm, -⟩ := exec_writesOnlyItsElements hreset hnext
      obtain ⟨hcnt, hout⟩ := hpwm hcmp
      exact waveform_congr hout hcnt (hduty hsetduty) hwave

/-- Settles O25: at count 99 the compare event takes its third case, the wrap. -/
theorem wrapStartsWaveform : Obligations.WrapStartsWaveform := by
  unfold Obligations.WrapStartsWaveform
  intro s t hen hcnt hnext
  obtain ⟨hoff, -⟩ | ⟨-, hbelow, -⟩ | ⟨-, -, rfl⟩ := execCmpEv_cases hnext
  · rw [hen] at hoff; cases hoff
  · omega
  · exact ⟨rfl, waveform_of_wrap rfl rfl⟩

/-- Settles O26: the level in interval `k` is `k < d`, and of the numbers below 100 exactly `d` are below `d`. -/
theorem channelAssertedForDutyIntervals : Obligations.ChannelAssertedForDutyIntervals := by
  unfold Obligations.ChannelAssertedForDutyIntervals
  intro s c hen hcnt hduty
  have hlevel : ∀ k ∈ List.range 100, levelAfter c s k = decide (k < Rgb.get s.duty c) := by
    intro k hk
    obtain ⟨t, hrun, -, hout⟩ := run_cmpEv_from_wrap hen hcnt (List.mem_range.1 hk)
    simp only [levelAfter, hrun, hout c]
  constructor
  · rw [assertedIntervals, List.filter_congr hlevel, length_filter_range_lt]
    exact Nat.min_eq_right hduty
  · intro k hk
    obtain ⟨t, hrun, hcnt', hout⟩ := run_cmpEv_from_wrap hen hcnt hk
    exact ⟨t, hrun, hcnt', hout c⟩

/-- Settles O27: `SETDUTY` leaves the count and the levels, and before the wrap only the match acts. -/
theorem midCycleDutyActsBeforeWrapOnlyByMatch : Obligations.MidCycleDutyActsBeforeWrapOnlyByMatch := by
  unfold Obligations.MidCycleDutyActsBeforeWrapOnlyByMatch
  intro s r g b k c hidle hen hk
  obtain ⟨t, hrun, -, hduty, hcnt, hout⟩ :=
    run_cmpEv_before_wrap (s := { s with duty := ⟨min r 100, min g 100, min b 100⟩, rsp := some 0 }) hen hk
  refine ⟨t, ?_, hcnt, ?_⟩
  · rw [run_cons_of_next _ (setdutyReplacesTriple s r g b hidle), hrun]
  · rw [hout c, hduty]

/-- Settles O28: up to the 99th compare event the count stays below the wrap, and only the wrap asserts. -/
theorem nothingAssertedBeforeFirstWrap : Obligations.NothingAssertedBeforeFirstWrap := by
  unfold Obligations.NothingAssertedBeforeFirstWrap
  intro is s u t hreset hcount hrun
  rw [execReset_eq hreset] at hrun
  have hoff : OffBeforeWrap ([] ++ is) t :=
    run_keeps (P := OffBeforeWrap) (Q := fun _ => True) (fun _ hoff hnext => offBeforeWrap_exec hoff hnext)
      (fun _ _ => trivial) (fun _ => ⟨rfl, Nat.le_refl 0⟩) hrun
  exact (hoff hcount).1

/-- Settles O29: as long as the transaction is in progress every event keeps the PWM, and once it has ended no event
opens another. -/
theorem transactionFreezesPwm : Obligations.TransactionFreezesPwm := by
  unfold Obligations.TransactionFreezesPwm
  intro is s t hinv hbusy hevents hrun hbusy'
  have hend : StateInv t ∧ (t.slState ≠ .idle → KeepsPwm s t) := by
    refine run_keeps (past := []) (P := fun _ u => StateInv u ∧ (u.slState ≠ .idle → KeepsPwm s u))
      (Q := fun i => isTransactionEvent i = true) ?_ hevents ⟨hinv, fun _ => ⟨rfl, rfl, rfl⟩⟩ hrun
    intro _ i u v hi hu hnext
    obtain ⟨hinv', hkept⟩ := hu
    refine ⟨exec_keepsInv hinv' hnext, fun hbusyv => ?_⟩
    have hbusyu : u.slState ≠ .idle := fun hidle => hbusyv (idle_of_transactionEvent hi hidle hnext)
    obtain ⟨hcnt, hout, hduty⟩ := hkept hbusyu
    obtain ⟨hcnt', hout', hduty'⟩ := keepsPwm_of_transactionEvent hi hinv' hbusyu hnext
    exact ⟨hcnt'.trans hcnt, hout'.trans hout, hduty'.trans hduty⟩
  obtain ⟨hinv', hkept⟩ := hend
  obtain ⟨-, -, -, hgates, -, -⟩ := hinv'
  obtain ⟨hcnt, hout, hduty⟩ := hkept hbusy'
  exact ⟨hcnt, hout, hduty, hgates.1.2 hbusy'⟩

end Sys2Proof.Machine
end

section
/-! The family 42_sensorlink on runs of events: the length of the request pulse (R159) and the bound of a transaction
(R177). -/

namespace Sys2Proof.Machine

/-! ## The request pulse -/

/-- After `n` ticks of the request pulse: still driving and counting below `REQ_LOW`, then released and waiting. -/
def RequestPulseAt (n : Nat) (u : State) : Prop :=
  (n < u.params.reqLow → u.slState = .reqPulse ∧ u.lineDrv = true ∧ u.reqCnt = n) ∧
  (u.params.reqLow ≤ n → u.slState = .waitAck0 ∧ u.lineDrv = false ∧ u.toCnt = 0)

theorem requestPulseAt_tickEv {n : Nat} {u v : State} (hat : RequestPulseAt n u) (hnext : exec .tickEv u = .next v) :
    RequestPulseAt (n + 1) v := by
  obtain ⟨hdriving, hreleased⟩ := hat
  obtain hbelow | hover := Nat.lt_or_ge n u.params.reqLow
  · obtain ⟨hpulse, hline, hcnt⟩ := hdriving hbelow
    obtain ⟨hnoPulse, -⟩ | ⟨-, hinner, rfl⟩ | ⟨-, hlast, rfl⟩ := execTickEv_cases hnext
    · exact absurd hpulse hnoPulse
    · rw [hcnt] at hinner
      exact ⟨fun _ => ⟨hpulse, hline, congrArg (· + 1) hcnt⟩,
        fun hover => absurd (Nat.le_antisymm hbelow hover) hinner⟩
    · rw [hcnt] at hlast
      exact ⟨fun hlt => absurd hlt (Nat.not_lt.2 (le_of_eq hlast.symm)), fun _ => ⟨rfl, rfl, rfl⟩⟩
  · obtain ⟨hwait, hline, hto⟩ := hreleased hover
    rw [exec_tickEv_of_noPulse (by rw [hwait]; nofun)] at hnext
    cases hnext
    exact ⟨fun hlt => absurd (Nat.lt_of_succ_lt hlt) (Nat.not_lt.2 hover), fun _ => ⟨hwait, hline, hto⟩⟩

theorem requestPulseAt_congr {n : Nat} {u v : State} (hat : RequestPulseAt n u) (hparams : v.params = u.params)
    (hkept : v.slState = u.slState ∧ v.toCnt = u.toCnt ∧ v.reqCnt = u.reqCnt ∧ v.lineDrv = u.lineDrv) :
    RequestPulseAt n v := by
  obtain ⟨hstage, hto, hreq, hline⟩ := hkept
  rwa [RequestPulseAt, hparams, hstage, hto, hreq, hline]

/-- A `CMP_EV` or `BIT_EV` leaves the link as it was. -/
theorem keepsLink_of_cmpEv_or_bitEv {i : Instr} {u v : State} (hi : i = .cmpEv ∨ i = .bitEv)
    (hnext : exec i u = .next v) :
    (v.slState = u.slState ∧ v.toCnt = u.toCnt ∧ v.reqCnt = u.reqCnt ∧ v.lineDrv = u.lineDrv) ∧
      v.bitIdx = u.bitIdx ∧ v.rsp = none := by
  obtain rfl | rfl := hi
  · obtain ⟨-, -, -, -, -, -, hlink, hidx, -⟩ := cmpEv_writesOnlyItsElements hnext
    exact ⟨hlink nofun nofun nofun, (hidx nofun nofun).1, (exec_cmpEv_silent hnext).1⟩
  · rw [execBitEv_eq hnext]
    exact ⟨⟨rfl, rfl, rfl, rfl⟩, rfl, rfl⟩

/-! ## The bound of a transaction (R177) -/

/-- How many matches lie before a stage: three of the acknowledgment, then two for each bit slot. -/
def stageMatches : SlState → Nat → Nat
  | .idle, _ => 0
  | .reqPulse, _ => 0
  | .waitAck0, _ => 0
  | .waitAck1, _ => 1
  | .waitAck2, _ => 2
  | .bitWaitHigh, idx => 3 + 2 * idx
  | .bitWaitLow, idx => 4 + 2 * idx

theorem stageMatches_le (st : SlState) {idx : Nat} (hidx : idx ≤ 39) : stageMatches st idx ≤ 82 := by
  cases st <;> simp only [stageMatches] <;> omega

/-- How the samples and ticks of the past of a transaction bound its progress: one sample for each match, and at most
`SENS_TIMEOUT` for each stage left behind. -/
def Progress (past : List Instr) (u : State) : Prop :=
  (u.slState = .idle ∧ sampleCount past ≤ 83 * u.params.sensTimeout ∧ (u.rsp = some 0 → 83 ≤ sampleCount past)) ∨
  (u.slState = .reqPulse ∧ u.rsp = none ∧ sampleCount past = 0 ∧ u.reqCnt = tickCount past) ∨
  (u.slState ≠ .idle ∧ u.slState ≠ .reqPulse ∧ u.rsp = none ∧
    stageMatches u.slState u.bitIdx ≤ sampleCount past ∧
    sampleCount past ≤ stageMatches u.slState u.bitIdx * u.params.sensTimeout + u.toCnt)

theorem sampleCount_append (is js : List Instr) : sampleCount (is ++ js) = sampleCount is + sampleCount js :=
  List.countP_append

theorem sampleCount_snoc_sample (past : List Instr) (lv : Level) :
    sampleCount (past ++ [.sample lv]) = sampleCount past + 1 := sampleCount_append past [.sample lv]

theorem sampleCount_snoc_of_noSample {i : Instr} (past : List Instr) (hi : isSample i = false) :
    sampleCount (past ++ [i]) = sampleCount past := by
  rw [sampleCount_append, sampleCount, sampleCount, List.countP_singleton, if_neg (Bool.not_eq_true _ ▸ hi), Nat.add_zero]

theorem progress_tickEv {past : List Instr} {u v : State} (hprog : Progress past u) (hnext : exec .tickEv u = .next v) :
    Progress (past ++ [.tickEv]) v := by
  have hticks : tickCount (past ++ [.tickEv]) = tickCount past + 1 := tickCount_append past [.tickEv]
  unfold Progress
  rw [sampleCount_snoc_of_noSample past rfl, hticks]
  obtain ⟨hidle, hmax, -⟩ | ⟨hpulse, -, hzero, hreq⟩ | ⟨hidle, hpulse, -, hmin, hmax⟩ := hprog
  · rw [exec_tickEv_of_noPulse (by rw [hidle]; nofun)] at hnext
    cases hnext
    exact .inl ⟨hidle, hmax, nofun⟩
  · obtain ⟨hnoPulse, -⟩ | ⟨-, -, rfl⟩ | ⟨-, -, rfl⟩ := execTickEv_cases hnext
    · exact absurd hpulse hnoPulse
    · exact .inr (.inl ⟨hpulse, rfl, hzero, congrArg (· + 1) hreq⟩)
    · exact .inr (.inr ⟨nofun, nofun, rfl, Nat.zero_le _, by rw [hzero]; exact Nat.zero_le _⟩)
  · rw [exec_tickEv_of_noPulse hpulse] at hnext
    cases hnext
    exact .inr (.inr ⟨hidle, hpulse, rfl, hmin, hmax⟩)

theorem progress_cmpEv_or_bitEv {past : List Instr} {i : Instr} {u v : State} (hi : i = .cmpEv ∨ i = .bitEv)
    (hprog : Progress past u) (hnext : exec i u = .next v) : Progress (past ++ [i]) v := by
  obtain ⟨⟨hstage, hto, hreq, -⟩, hidx, hrsp⟩ := keepsLink_of_cmpEv_or_bitEv hi hnext
  have hsamples : sampleCount (past ++ [i]) = sampleCount past := by
    obtain rfl | rfl := hi <;> exact sampleCount_snoc_of_noSample past rfl
  have hticks : tickCount (past ++ [i]) = tickCount past := by
    obtain rfl | rfl := hi <;> exact tickCount_append past _
  unfold Progress
  rw [hsamples, hticks, hstage, hto, hreq, hidx, hrsp, exec_params hnext]
  obtain ⟨hidle, hmax, -⟩ | ⟨hpulse, -, hzero, hreq⟩ | ⟨hidle, hpulse, -, hmin, hmax⟩ := hprog
  · exact .inl ⟨hidle, hmax, nofun⟩
  · exact .inr (.inl ⟨hpulse, rfl, hzero, hreq⟩)
  · exact .inr (.inr ⟨hidle, hpulse, rfl, hmin, hmax⟩)

/-- One more sample, and one more match: the next stage starts with its counter at 0. -/
theorem progress_of_match {past : List Instr} {lv : Level} {u v : State}
    (hmin : stageMatches u.slState u.bitIdx ≤ sampleCount past)
    (hmax : sampleCount past ≤ stageMatches u.slState u.bitIdx * u.params.sensTimeout + u.toCnt)
    (hto : u.toCnt < u.params.sensTimeout) (hparams : v.params = u.params) (hidle : v.slState ≠ .idle)
    (hpulse : v.slState ≠ .reqPulse) (hrsp : v.rsp = none) (hzero : v.toCnt = 0)
    (hmatches : stageMatches v.slState v.bitIdx = stageMatches u.slState u.bitIdx + 1) :
    Progress (past ++ [.sample lv]) v := by
  refine .inr (.inr ⟨hidle, hpulse, hrsp, ?_, ?_⟩)
  · rw [hmatches, sampleCount_snoc_sample]
    exact Nat.succ_le_succ hmin
  · rw [hmatches, sampleCount_snoc_sample, hparams, hzero, Nat.succ_mul]
    omega

/-- Inside a wait stage the next sample is within the bound. -/
theorem samples_lt_bound {m n toCnt cap : Nat} (hm : m ≤ 82) (hto : toCnt < cap) (hmax : n ≤ m * cap + toCnt) :
    n < 83 * cap := by
  have hmul : m * cap ≤ 82 * cap := Nat.mul_le_mul_right cap hm
  omega

theorem resultWord_ne_zero {code : ResultCode} (hcode : code ≠ .success) : ResultCode.word code ≠ 0 := by
  cases code with
  | success => exact absurd rfl hcode
  | notDue | timeoutAck0 | timeoutAck1 | timeoutAck2 | timeoutBitHigh | timeoutBitLow | checksumError => decide

theorem progress_sample {past : List Instr} {lv : Level} {u v : State} (hinv : StateInv u) (hprog : Progress past u)
    (hnext : exec (.sample lv) u = .next v) : Progress (past ++ [.sample lv]) v := by
  obtain ⟨-, -, -, -, ⟨hto, -, hidx⟩, -⟩ := hinv
  obtain ⟨hidle, hpulse, hcases⟩ := execSample_stage_cases hnext
  obtain ⟨hidle', -⟩ | ⟨hpulse', -⟩ | ⟨-, -, -, hmin, hmax⟩ := hprog
  · exact absurd hidle' hidle
  · exact absurd hpulse' hpulse
  have hbound := samples_lt_bound (stageMatches_le u.slState hidx) hto hmax
  obtain ⟨hstage, rfl⟩ | ⟨hstage, rfl⟩ | ⟨hstage, rfl⟩ | ⟨hstage, rfl⟩ | ⟨hstage, -, rfl⟩ | ⟨hstage, hlast, rfl⟩ |
    ⟨-, rfl⟩ | ⟨-, code, hcode, -, rfl⟩ := hcases
  · exact progress_of_match hmin hmax hto rfl nofun nofun rfl rfl (by rw [hstage]; rfl)
  · exact progress_of_match hmin hmax hto rfl nofun nofun rfl rfl (by rw [hstage]; rfl)
  · exact progress_of_match hmin hmax hto rfl nofun nofun rfl rfl (by rw [hstage]; rfl)
  · exact progress_of_match hmin hmax hto rfl nofun nofun rfl rfl
      (by rw [hstage]; simp only [stageMatches, noResponse_bitIdx]; omega)
  · exact progress_of_match hmin hmax hto rfl nofun nofun rfl rfl
      (by rw [hstage]; simp only [stageMatches]; omega)
  · left
    have hmatches : stageMatches u.slState u.bitIdx = 82 := by
      rw [hstage, Nat.le_antisymm hidx hlast]; rfl
    obtain ⟨hparams, -⟩ := exec_sample_keepsClockAndPwm hnext
    rw [sampleCount_snoc_sample, hparams]
    exact ⟨(completion_endsTransaction _).1, hbound, fun _ => by omega⟩
  · refine .inr (.inr ⟨hidle, hpulse, rfl, ?_, ?_⟩)
    · rw [sampleCount_snoc_sample]
      exact Nat.le_succ_of_le hmin
    · rw [sampleCount_snoc_sample]
      exact Nat.succ_le_succ hmax
  · left
    rw [sampleCount_snoc_sample]
    exact ⟨rfl, hbound, fun hrsp => absurd (Option.some.inj hrsp) (resultWord_ne_zero hcode)⟩

theorem progress_transactionEvent {past : List Instr} {i : Instr} {u v : State} (hi : isTransactionEvent i = true)
    (hinv : StateInv u) (hprog : Progress past u) (hnext : exec i u = .next v) : Progress (past ++ [i]) v := by
  obtain ⟨lv, rfl⟩ | rfl | hother := isTransactionEvent_cases hi
  · exact progress_sample hinv hprog hnext
  · exact progress_tickEv hprog hnext
  · exact progress_cmpEv_or_bitEv hother hprog hnext

/-! ## The obligations -/

/-- Settles O45: each `TICK_EV` moves the request pulse on by one, and the other events leave the link alone. -/
theorem requestPulseLastsReqLowTicks : Obligations.RequestPulseLastsReqLowTicks := by
  unfold Obligations.RequestPulseLastsReqLowTicks
  intro is s t hpulse hreq hline hlow hevents hrun
  have hend : t.params = s.params ∧ RequestPulseAt (tickCount is) t := by
    refine run_keeps (past := []) (P := fun past u => u.params = s.params ∧ RequestPulseAt (tickCount past) u)
      (Q := fun i => i = .tickEv ∨ i = .cmpEv ∨ i = .bitEv) ?_ hevents
      ⟨rfl, fun _ => ⟨hpulse, hline, hreq⟩, fun hzero => absurd hlow (Nat.not_le.2 (Nat.lt_succ_of_le hzero))⟩ hrun
    intro past i u v hi hu hnext
    obtain ⟨hparams, hat⟩ := hu
    refine ⟨(exec_params hnext).trans hparams, ?_⟩
    rw [tickCount_append]
    obtain rfl | hother := hi
    · exact requestPulseAt_tickEv hat hnext
    · have hnot : i ≠ .tickEv := by obtain rfl | rfl := hother <;> nofun
      rw [tickCount_of_ne hnot]
      exact requestPulseAt_congr hat (exec_params hnext) (keepsLink_of_cmpEv_or_bitEv hother hnext).1
  obtain ⟨hparams, hdriving, hreleased⟩ := hend
  rw [hparams] at hdriving hreleased
  exact ⟨hdriving, hreleased⟩

/-- Settles O46: the progress of a transaction, read at the end of the run. -/
theorem transactionIsBounded : Obligations.TransactionIsBounded := by
  unfold Obligations.TransactionIsBounded
  intro is s t hinv hpulse hreq hrsp hevents hrun
  have hend : t.params = s.params ∧ StateInv t ∧ Progress is t := by
    refine run_keeps (past := []) (P := fun past u => u.params = s.params ∧ StateInv u ∧ Progress past u)
      (Q := fun i => isTransactionEvent i = true) ?_ hevents
      ⟨rfl, hinv, .inr (.inl ⟨hpulse, hrsp, rfl, hreq⟩)⟩ hrun
    intro past i u v hi hu hnext
    obtain ⟨hparams, hinv, hprog⟩ := hu
    exact ⟨(exec_params hnext).trans hparams, exec_keepsInv hinv hnext, progress_transactionEvent hi hinv hprog hnext⟩
  obtain ⟨hparams, hinv', hprog⟩ := hend
  obtain ⟨-, -, -, -, ⟨hto, hreq', hidx⟩, -⟩ := hinv'
  rw [Progress, hparams] at hprog
  rw [hparams] at hto hreq'
  obtain ⟨hidle, hmax, hmin⟩ | ⟨hpulse', hrsp', hzero, hticks⟩ | ⟨hidle, hpulse', hrsp', -, hmax⟩ := hprog
  · exact ⟨hmax, fun hbusy => absurd hidle hbusy, fun _ => by rw [hidle]; nofun, hmin⟩
  · rw [hzero, hrsp']
    exact ⟨Nat.zero_le _, fun _ => by omega, fun hover => by omega, nofun⟩
  · have hbound := samples_lt_bound (stageMatches_le t.slState hidx) hto hmax
    rw [hrsp']
    exact ⟨hbound.le, fun _ => hbound, fun _ => hpulse', nofun⟩

end Sys2Proof.Machine
end

section
/-! Whole transactions (R97, R98, R155 to R170): the opening, the request pulse, the acknowledgment, the bit slots and
the two ways to end, each as one run from a given state to a given state. -/

namespace Sys2Proof.Machine

/-! ## The request pulse and the acknowledgment -/

/-- The first `k` ticks of the request pulse, short of the last. -/
theorem run_innerTicks {s : State} (hpulse : s.slState = .reqPulse) (hreq : s.reqCnt = 0) (hrsp : s.rsp = none)
    (htick : s.tick < tickRange s.params) {k : Nat} (hk : k < s.params.reqLow) :
    run (List.replicate k .tickEv) s =
      .next { s with tick := (s.tick + k) % tickRange s.params, reqCnt := k } := by
  induction k with
  | zero =>
    have hself : { s with tick := s.tick, reqCnt := 0 } = s := by rw [← hreq]
    rw [Nat.add_zero, Nat.mod_eq_of_lt htick, hself]
    rfl
  | succ k ih =>
    rw [List.replicate_succ', run_append_of_next _ (ih (Nat.lt_of_succ_lt hk)),
      run_cons_of_next _ (exec_tickEv_of_innerTick
        (s := { s with tick := (s.tick + k) % tickRange s.params, reqCnt := k }) hpulse (Nat.ne_of_lt hk))]
    simp only [run, noResponse, tickSucc, Nat.mod_add_mod, hrsp, Nat.add_assoc]

/-- The whole request pulse: `REQ_LOW` ticks later the line is released (R159). -/
theorem run_requestPulse {s : State} (hpulse : s.slState = .reqPulse) (hreq : s.reqCnt = 0) (hrsp : s.rsp = none)
    (htick : s.tick < tickRange s.params) (hlow : 1 ≤ s.params.reqLow) :
    run (List.replicate s.params.reqLow .tickEv) s =
      .next { s with
        tick := (s.tick + s.params.reqLow) % tickRange s.params
        lineDrv := false, slState := .waitAck0, toCnt := 0, reqCnt := 0 } := by
  obtain ⟨k, hk⟩ := Nat.exists_eq_add_of_le' hlow
  rw [hk, List.replicate_succ', run_append_of_next _ (run_innerTicks hpulse hreq hrsp htick (by omega)),
    run_cons_of_next _ (exec_tickEv_of_lastTick
      (s := { s with tick := (s.tick + k) % tickRange s.params, reqCnt := k }) hpulse hk.symm)]
  simp only [run, noResponse, tickSucc, Nat.mod_add_mod, hrsp, Nat.add_assoc]

/-- The acknowledgment: low, high, low (R163 to R165). -/
theorem run_acknowledgment {s : State} (hstage : s.slState = .waitAck0) :
    run [.sample false, .sample true, .sample false] s =
      .next { noResponse s with slState := .bitWaitHigh, toCnt := 0, bitIdx := 0 } := by
  rw [run_cons_of_next _ (firstAcknowledgmentMatch s hstage), run_cons_of_next _ (exec_sample_of_awaited rfl),
    run_cons_of_next _ (exec_sample_of_awaited rfl)]
  rfl

/-! ## The bit slots -/

theorem run_bitEvs {s : State} (hrsp : s.rsp = none) (n : Nat) :
    run (List.replicate n .bitEv) s = .next { s with bitCnt := s.bitCnt + BitVec.ofNat 8 n } := by
  induction n with
  | zero =>
    rw [BitVec.add_zero]
    rfl
  | succ n ih =>
    rw [List.replicate_succ', run_append_of_next _ ih, run_cons_of_next _ (exec_bitEv _)]
    simp only [run, bitNext, noResponse, hrsp, BitVec.ofNat_add, BitVec.add_assoc]
    rfl

/-- One slot: the bit timer starts at 0, counts the slot's length modulo 256, and is read at the end (R166, R167). -/
theorem run_slot {s : State} (hstage : s.slState = .bitWaitHigh) (n : Nat) :
    run (slotSteps n) s =
      .next (slotEnd { noResponse s with slState := .bitWaitLow, toCnt := 0, bitCnt := BitVec.ofNat 8 n }) := by
  have hstart : exec (.sample true) s =
      .next { noResponse s with slState := .bitWaitLow, toCnt := 0, bitCnt := 0#8 } := by
    rw [exec_sample_of_awaited (by rw [hstage]; rfl), sampleMatch_of_bitWaitHigh (noResponse s) hstage]
    rfl
  rw [slotSteps, run_cons_of_next _ hstart, run_append_of_next _ (run_bitEvs rfl n),
    run_cons_of_next _ (exec_sample_of_awaited rfl)]
  simp only [run, sampleMatch, noResponse, BitVec.zero_add]

/-- The frame after the slots of the given lengths, the first of them at sequence index `k`. -/
def receivedFrame (p : Params) : Frame → Nat → List Nat → Frame
  | f, _, [] => f
  | f, k, n :: ns => receivedFrame p (storeBit f k (slotBit p (BitVec.ofNat 8 n))) (k + 1) ns

/-- The slots to the end of the frame: every bit is stored, and the last slot completes (R167, R168). -/
theorem run_slots {s : State} {counts : List Nat} (hstage : s.slState = .bitWaitHigh) (hne : counts ≠ [])
    (hlen : s.bitIdx + counts.length = 40) :
    run (counts.flatMap slotSteps) s =
      .next (completion { noResponse s with
        slState := .bitWaitLow, toCnt := 0, bitIdx := 39, bitCnt := BitVec.ofNat 8 (counts.getLast hne)
        frame := receivedFrame s.params s.frame s.bitIdx counts }) := by
  induction counts generalizing s with
  | nil => exact absurd rfl hne
  | cons n ns ih =>
    rw [List.flatMap_cons, run_append_of_next _ (run_slot hstage n)]
    cases ns with
    | nil =>
      have hlast : s.bitIdx = 39 := Nat.succ.inj hlen
      simp only [slotEnd, noResponse_bitIdx, hlast, Nat.lt_irrefl, if_false]
      rfl
    | cons m ms =>
      have hinner : s.bitIdx < 39 := by simp only [List.length_cons] at hlen; omega
      simp only [slotEnd, noResponse_bitIdx, hinner, if_true]
      rw [ih rfl (List.cons_ne_nil m ms) (by simp only [List.length_cons] at hlen ⊢; omega)]
      rfl

/-- The bits stored before keep their values. -/
theorem receivedFrame_getLsbD_of_lt (p : Params) {f : Frame} {k i : Nat} {ns : List Nat} (hi : i < k)
    (hlen : k + ns.length ≤ 40) : (receivedFrame p f k ns).getLsbD (39 - i) = f.getLsbD (39 - i) := by
  induction ns generalizing f k with
  | nil => rfl
  | cons n ns ih =>
    rw [List.length_cons] at hlen
    rw [receivedFrame, ih (Nat.lt_succ_of_lt hi) (by omega), storeBit_getLsbD f k _ _ (by omega) (by omega),
      if_neg (by omega)]

/-- Each slot's bit stands where its sequence index says (R95). -/
theorem receivedFrame_getLsbD (p : Params) {f : Frame} {k : Nat} {ns : List Nat} (hlen : k + ns.length ≤ 40) {i : Nat}
    (hi : i < ns.length) :
    (receivedFrame p f k ns).getLsbD (39 - (k + i)) = slotBit p (BitVec.ofNat 8 ns[i]) := by
  induction ns generalizing f k i with
  | nil => exact absurd hi (Nat.not_lt_zero i)
  | cons n ns ih =>
    rw [List.length_cons] at hlen hi
    rw [receivedFrame]
    cases i with
    | zero =>
      show (receivedFrame p _ (k + 1) ns).getLsbD (39 - k) = slotBit p (BitVec.ofNat 8 n)
      rw [receivedFrame_getLsbD_of_lt p (Nat.lt_add_one k) (by omega), storeBit_getLsbD f k _ _ (by omega) (by omega),
        if_pos rfl]
    | succ i =>
      rw [show k + (i + 1) = k + 1 + i by omega]
      exact ih (by omega) (by omega)

theorem slotBit_ofNat (p : Params) (n : Nat) : slotBit p (BitVec.ofNat 8 n) = decide (p.bitThreshold < n % 256) := by
  rw [slotBit, BitVec.toNat_ofNat]

/-! ## Samples without an answer -/

theorem exec_sample_true_of_waitAck0 {s : State} (hstage : s.slState = .waitAck0) :
    exec (.sample true) s = .next (sampleMiss .timeoutAck0 (noResponse s)) :=
  exec_sample_of_miss (awaited := false) (by rw [hstage]; rfl) (by decide)

/-- With the line high in `WaitAck0`, the sample that brings the counter to `SENS_TIMEOUT` aborts with code 2 (R162). -/
theorem run_unanswered {s : State} (hstage : s.slState = .waitAck0) {k : Nat}
    (hcap : s.toCnt + (k + 1) = s.params.sensTimeout) :
    run (List.replicate (k + 1) (.sample true)) s =
      .next (abort .timeoutAck0 { noResponse s with toCnt := s.params.sensTimeout - 1 }) := by
  induction k generalizing s with
  | zero =>
    have hlast : s.params.sensTimeout - 1 = s.toCnt := by omega
    rw [List.replicate_succ, run_cons_of_next _ (exec_sample_true_of_waitAck0 hstage),
      sampleMiss_of_cap _ (noResponse s) hcap, hlast]
    rfl
  | succ k ih =>
    have hbelow : s.toCnt + 1 ≠ s.params.sensTimeout := by omega
    have hrest : s.toCnt + 1 + (k + 1) = s.params.sensTimeout := by omega
    rw [List.replicate_succ, run_cons_of_next _ (exec_sample_true_of_waitAck0 hstage),
      sampleMiss_of_lt _ (noResponse s) hbelow]
    exact ih hstage hrest

/-! ## From the opening `POLL` -/

/-- The state in `WaitAck0` after the opening `POLL` and the request pulse. -/
def afterRequestPulse (s : State) : State :=
  { s with
    tick := (s.tick + s.params.reqLow) % tickRange s.params
    snap := s.snap.set s.params.sensorTimer.val s.tick
    pwmEn := false, lineDrv := false, slState := .waitAck0
    reqCnt := 0, bitIdx := 0, toCnt := 0, frame := 0, rsp := none }

/-- The opening `POLL` and the request pulse (R155, R159). -/
theorem run_poll_requestPulse {s : State} (hinv : StateInv s) (hidle : s.slState = .idle) (hdue : SensorIsDue s)
    (is : List Instr) :
    run (.poll :: (List.replicate s.params.reqLow .tickEv ++ is)) s = run is (afterRequestPulse s) := by
  obtain ⟨⟨-, -, -, -, hlow, -, -⟩, ⟨htick, -⟩, -, -, -, -⟩ := hinv
  rw [run_cons_of_next _ (pollDueOpensTransaction s hidle hdue)]
  exact run_append_of_next is (run_requestPulse (s := { s with
    snap := s.snap.set s.params.sensorTimer.val s.tick, pwmEn := false, lineDrv := true, slState := .reqPulse
    reqCnt := 0, bitIdx := 0, toCnt := 0, frame := 0, rsp := none }) rfl rfl rfl htick hlow)

/-- The state at the end of the last slot, its bit stored, before the completion. -/
def afterLastSlot (s : State) (counts : List Nat) (last : Nat) : State :=
  { afterRequestPulse s with
    slState := .bitWaitLow, bitIdx := 39, bitCnt := BitVec.ofNat 8 last
    frame := receivedFrame s.params 0 0 counts }

/-- A whole transaction with an acknowledging peer ends in the completion of the frame its slots spell. -/
theorem run_transactionSteps {s : State} {counts : List Nat} (hinv : StateInv s) (hidle : s.slState = .idle)
    (hdue : SensorIsDue s) (hne : counts ≠ []) (hlen : counts.length = 40) :
    run (transactionSteps s.params.reqLow counts) s =
      .next (completion (afterLastSlot s counts (counts.getLast hne))) := by
  rw [transactionSteps, run_poll_requestPulse hinv hidle hdue, run_append_of_next _ (run_acknowledgment rfl),
    run_slots rfl hne ((Nat.zero_add _).trans hlen)]
  rfl

/-- After an abort both flags are kept up to `MAX_ERRORS` and cleared past it (R198). -/
theorem abort_flags (code : ResultCode) (s : State) :
    ((satInc s.err).toNat ≤ s.params.maxErrors →
      (abort code s).humValid = s.humValid ∧ (abort code s).tempValid = s.tempValid) ∧
    (s.params.maxErrors < (satInc s.err).toNat →
      (abort code s).humValid = false ∧ (abort code s).tempValid = false) :=
  ⟨fun hbelow => ⟨if_neg (Nat.not_lt.2 hbelow), if_neg (Nat.not_lt.2 hbelow)⟩, fun hpast => ⟨if_pos hpast, if_pos hpast⟩⟩

/-! ## The obligations -/

/-- Settles O47: the run ends in the completion of the received frame, which succeeds or aborts by the checksum. -/
theorem transactionReceivesForty : Obligations.TransactionReceivesForty := by
  unfold Obligations.TransactionReceivesForty
  intro s counts hinv hidle hdue hlen
  have hne : counts ≠ [] := by rintro rfl; cases hlen
  have hrun := run_transactionSteps hinv hidle hdue hne hlen
  have hbits : ∀ (i : Nat) (h : i < counts.length), (receivedFrame s.params 0 0 counts).getLsbD (39 - i) =
      decide (s.params.bitThreshold < counts[i] % 256) := by
    intro i hi
    rw [← slotBit_ofNat, ← receivedFrame_getLsbD s.params (f := 0) (k := 0) (by omega) hi, Nat.zero_add]
  have hlast : ∀ h : 39 < counts.length, BitVec.ofNat 8 (counts.getLast hne) = BitVec.ofNat 8 counts[39] := by
    intro h
    rw [List.getLast_eq_getElem]
    simp only [hlen]
  refine ⟨_, hrun, ?_⟩
  obtain ⟨hgood, hend⟩ | ⟨hbad, hend⟩ := completion_cases (afterLastSlot s counts (counts.getLast hne))
  · rw [hend]
    refine ⟨hbits, rfl, rfl, rfl, rfl, rfl, rfl, rfl, rfl, rfl, rfl, rfl, hlast, rfl, rfl, fun _ => ?_, fun hbad => ?_⟩
    · exact ⟨rfl, rfl, rfl, rfl, rfl, fun hflag => if_neg (Bool.not_eq_true _ ▸ hflag), fun hflag => if_pos hflag⟩
    · exact absurd (hgood.symm.trans hbad) nofun
  · rw [hend]
    refine ⟨hbits, rfl, rfl, rfl, rfl, rfl, rfl, rfl, rfl, rfl, rfl, rfl, hlast, rfl, rfl, fun hgood => ?_, fun _ => ?_⟩
    · exact absurd (hgood.symm.trans hbad) nofun
    · exact ⟨rfl, rfl, rfl, rfl, abort_flags .checksumError (afterLastSlot s counts (counts.getLast hne))⟩

/-- Settles O48: the run ends in the abort of `WaitAck0`, taken at its `SENS_TIMEOUT`-th sample. -/
theorem unansweredTransactionTimesOut : Obligations.UnansweredTransactionTimesOut := by
  unfold Obligations.UnansweredTransactionTimesOut
  intro s hinv hidle hdue
  obtain ⟨-, -, -, -, -, -, hsensTimeout⟩ := hinv.1
  obtain ⟨k, hk⟩ := Nat.exists_eq_add_of_le' hsensTimeout
  have hsamples := run_unanswered (s := afterRequestPulse s) rfl ((Nat.zero_add _).trans hk.symm)
  rw [← hk] at hsamples
  have hrun : run (unansweredSteps s.params.reqLow s.params.sensTimeout) s =
      .next (abort .timeoutAck0 { afterRequestPulse s with toCnt := s.params.sensTimeout - 1 }) := by
    rw [unansweredSteps, run_poll_requestPulse hinv hidle hdue]
    exact hsamples
  obtain ⟨hkept, hcleared⟩ := abort_flags .timeoutAck0 { afterRequestPulse s with toCnt := s.params.sensTimeout - 1 }
  exact ⟨_, hrun, rfl, rfl, rfl, rfl, rfl, rfl, rfl, hkept, hcleared, rfl, rfl, rfl⟩

end Sys2Proof.Machine
end
